-- ==== Sys2Proof/Word.lean ====
section
/-! DEFINITION. The word types of the engine and the Hamming weight of rule R11. -/

namespace Sys2Proof

/-- A byte is 8 bits (rule R11). -/
abbrev Byte := BitVec 8

/-- A 32-bit count: seconds, microseconds, backoff (rules R31, R37, R436). -/
abbrev Word32 := BitVec 32

/-- `weight(b)`, the number of 1 bits of a byte (rule R11). -/
def weight (b : Byte) : Nat :=
  (List.range 8).countP fun i => b.getLsbD i

end Sys2Proof
end

