-- ==== Sys2Proof/Config.lean ====
section
/-! DEFINITION. The parameters of rule R9, their defaults, the constraints a choice must satisfy, and the constants of rule R8. -/

namespace Sys2Proof

/-- The parameters the source leaves open and rule R9 makes fields of the model. They are fixed at
instantiation (rule R452). -/
structure Config where
  /-- `ENC4OF8[0..63]` (rule R101). -/
  enc4of8 : List Byte
  /-- `CH1_DEPTH`: entries the channel-1 queue holds. -/
  ch1Depth : Nat
  /-- `CH2_DEPTH`: entries the channel-2 queue holds. -/
  ch2Depth : Nat
  /-- `ENTRY_MAX_BYTES`: bytes one queue entry holds. -/
  entryMaxBytes : Nat
  /-- `CV_CAPACITY`: entries the CV map holds. -/
  cvCapacity : Nat
  /-- `DS_CAPACITY`: data spaces the store holds. -/
  dsCapacity : Nat
  /-- `DS_MAX_LEN`: bytes one data space holds. -/
  dsMaxLen : Nat
  /-- `DS_READ_MARKER`: instruction byte of Data-Space-Read (rule R118). -/
  dsReadMarker : Byte
  /-- `BACKOFF_STEP`: additive growth of the backoff value (rule R331). -/
  backoffStep : Nat
  /-- `T_CUTOUT_WINDOW_US`: duration of the cutout window in microseconds; `none` where it is left open, as rule R9
  has no default for it (log entry 18). -/
  cutoutWindowUs : Option Nat
deriving DecidableEq, Repr

/-- `ACK1` (rule R8). -/
def ack1 : Byte := 0xF0
/-- `ACK2` (rule R8). -/
def ack2 : Byte := 0x0F
/-- `NACK` (rule R8). -/
def nack : Byte := 0x3C

/-- Entries 0 to 31 of the default table of rule R101. -/
def Config.defaultEncLow : List Byte :=
  [0xAC, 0xAA, 0xA9, 0xA5, 0xA3, 0xA6, 0x9C, 0x9A, 0x99, 0x95, 0x93, 0x96, 0x8E, 0x8D, 0x8B, 0xB1,
   0xB2, 0xB4, 0xB8, 0x74, 0x72, 0x6C, 0x6A, 0x69, 0x65, 0x63, 0x66, 0x5C, 0x5A, 0x59, 0x55, 0x53]

/-- Entries 32 to 63 of the default table of rule R101. -/
def Config.defaultEncHigh : List Byte :=
  [0x56, 0x4E, 0x4D, 0x4B, 0x47, 0x71, 0xE8, 0xE4, 0xE2, 0xD1, 0xC9, 0xC5, 0xD8, 0xD4, 0xD2, 0xCA,
   0xC6, 0xCC, 0x78, 0x17, 0x1B, 0x1D, 0x1E, 0x2E, 0x36, 0x3A, 0x27, 0x2B, 0x2D, 0x35, 0x39, 0x33]

/-- The defaults of rule R9. UNVERIFIED: the table is general knowledge, not the source's (rule R101, log entry 5). -/
def Config.default : Config where
  enc4of8 := Config.defaultEncLow ++ Config.defaultEncHigh
  ch1Depth := 8
  ch2Depth := 8
  entryMaxBytes := 24
  cvCapacity := 256
  dsCapacity := 8
  dsMaxLen := 255
  dsReadMarker := 0xDF
  backoffStep := 1
  cutoutWindowUs := none

/-- The four requirements of rule R101 on `ENC4OF8`. -/
abbrev Config.encOk (c : Config) : Prop :=
  c.enc4of8.length = 64 ∧ c.enc4of8.Nodup ∧
    ∀ b ∈ c.enc4of8, weight b = 4 ∧ b ≠ ack1 ∧ b ≠ ack2 ∧ b ≠ nack

/-- `DS_READ_MARKER` is a byte no other pattern of rules R114 to R117 matches as instruction byte (rule R9). -/
abbrev Config.markerOk (c : Config) : Prop :=
  c.dsReadMarker.extractLsb' 2 6 ≠ 0b111001#6 ∧ c.dsReadMarker.extractLsb' 2 6 ≠ 0b111010#6 ∧
  c.dsReadMarker.extractLsb' 2 6 ≠ 0b111011#6 ∧ c.dsReadMarker.extractLsb' 5 3 ≠ 0b100#3 ∧
  c.dsReadMarker.extractLsb' 5 3 ≠ 0b101#3 ∧ c.dsReadMarker ≠ 0xDE#8

/-- The constraints rule R9 puts on a choice of parameters. -/
abbrev Config.ok (c : Config) : Prop :=
  c.encOk ∧ 22 ≤ c.entryMaxBytes ∧ 1 ≤ c.ch1Depth ∧ 1 ≤ c.ch2Depth ∧ 1 ≤ c.cvCapacity ∧
  1 ≤ c.dsCapacity ∧ c.dsMaxLen ≤ 255 ∧ c.markerOk ∧ 1 ≤ c.backoffStep

/-- `T_CH2_MIN_US`, the minimum inter-channel delay in microseconds (rule R8). -/
abbrev tCh2MinUs : Nat := 193
/-- `BAUD_RAILCOM` (rule R8). -/
abbrev baudRailcom : Nat := 250000
/-- `BAUD_IDLE` (rule R8). -/
abbrev baudIdle : Nat := 115200
/-- `DCCA_ADDR`, the reserved broadcast address 254 of the logon commands (rule R8). -/
def dccaAddr : Byte := 254
/-- `DS_MAX_PAYLOAD` (rule R8). -/
abbrev dsMaxPayload : Nat := 16
/-- `DS_LEN_MASK` (rule R8). -/
def dsLenMask : Byte := 0x1F
/-- `XPOM_SEQ_MAX` (rule R8). -/
abbrev xpomSeqMax : Nat := 3
/-- `ACC_ADDR_MAX` (rule R8). -/
abbrev accAddrMax : Nat := 2047
/-- `RERAIL_MAX` (rule R8). -/
abbrev rerailMax : Nat := 255
/-- `TIME_MAX` (rule R8). -/
abbrev timeMax : Nat := 127
/-- `DCC_PKT_MAX` (rule R8). -/
abbrev dccPktMax : Nat := 12

end Sys2Proof
end

