-- ==== Sys2Proof/Machine/Codec.lean ====
section
/-! DEFINITION. The Codec (40_codec.md): bit strings, the 4-of-8 symbol code, CRC-8 and bit packing. A bit string is
a list of bits, most significant first (rules R11, R75). -/

namespace Sys2Proof.Machine

/-- The low `n` bits of `v` as a bit string. -/
def bitsOf : Nat → Nat → List Bool
  | 0, _ => []
  | n + 1, v => v.testBit n :: bitsOf n v

/-- The value of a bit string. -/
def bitsVal (bits : List Bool) : Nat :=
  bits.foldl (fun acc b => 2 * acc + b.toNat) 0

/-- A bit string cut into 6-bit values from its front; a rest of fewer than 6 bits is left out. -/
def sixes : List Bool → List Nat
  | a :: b :: c :: d :: e :: f :: rest => bitsVal [a, b, c, d, e, f] :: sixes rest
  | _ => []

/-- A bit string cut into bytes from its front; a rest of fewer than 8 bits is left out (rule R202). -/
def octets : List Bool → List Byte
  | a :: b :: c :: d :: e :: f :: g :: h :: rest => BitVec.ofNat 8 (bitsVal [a, b, c, d, e, f, g, h]) :: octets rest
  | _ => []

/-- Bytes as one bit string, each most significant bit first (rule R77). -/
def bitsOfBytes (bytes : List Byte) : List Bool :=
  bytes.flatMap fun b => bitsOf 8 b.toNat

/-- `encode4of8` (rule R151), with the sentinel 0 out of range. -/
def encode4of8 (cfg : Config) (v : Nat) : Byte :=
  if v ≤ 63 then cfg.enc4of8.getD v 0 else 0

/-- The result of `decode4of8` (rule R152). -/
inductive Symbol where
  | data (v : BitVec 6)
  | ack1
  | ack2
  | nack
  | invalid
deriving DecidableEq, Repr

/-- `decode4of8` (rule R152), the tests in the order written. -/
def decode4of8 (cfg : Config) (b : Byte) : Symbol :=
  if b = Sys2Proof.ack1 then .ack1
  else if b = Sys2Proof.ack2 then .ack2
  else if b = Sys2Proof.nack then .nack
  else if weight b ≠ 4 then .invalid
  else
    match (cfg.enc4of8.take 64).idxOf? b with
    | some v => .data (BitVec.ofNat 6 v)
    | none => .invalid

/-- One shift of the reflected CRC register (rule R160). -/
def crcShift (c : Byte) : Byte :=
  if c.getLsbD 0 then (c >>> 1) ^^^ 0x8C else c >>> 1

/-- One byte into the CRC register (rule R160). -/
def crcByte (c d : Byte) : Byte :=
  crcShift (crcShift (crcShift (crcShift (crcShift (crcShift (crcShift (crcShift (c ^^^ d))))))))

/-- `crc8(data, len, init)` (rule R160) with `len` the length of `data`. -/
def crc8 (data : List Byte) (init : Byte) : Byte :=
  data.foldl crcByte init

/-- `encodeRaw` (rule R165): pad with zero bits to a multiple of 6, cut, encode each. -/
def encodeRaw (cfg : Config) (bits : List Bool) : List Byte :=
  (sixes (bits ++ List.replicate ((6 - bits.length % 6) % 6) false)).map (encode4of8 cfg)

/-- `encodeDatagram` (rule R166). -/
def encodeDatagram (cfg : Config) (id : BitVec 4) (payload payloadBits : Nat) : List Byte :=
  encodeRaw cfg (bitsOf 4 id.toNat ++ bitsOf payloadBits payload)

/-- `encodeServiceRequest` (rules R107, R167). -/
def encodeServiceRequest (cfg : Config) (address : BitVec 11) (isExtended : Bool) : List Byte :=
  encodeRaw cfg (isExtended :: bitsOf 11 address.toNat)

/-- The byte string of a data-space response (rule R108): the length byte, the data, a CRC byte. -/
def dataSpaceBytes (data : List Byte) (crc : Byte) : List Byte :=
  BitVec.ofNat 8 data.length :: data ++ [crc]

/-- The CRC of a data-space response (rule R162). -/
def dataSpaceCrc (num : Byte) (data : List Byte) : Byte :=
  crc8 (BitVec.ofNat 8 data.length :: data) num

/-- `encodeDataSpace` (rule R168). -/
def encodeDataSpace (cfg : Config) (num : Byte) (data : List Byte) : List Byte :=
  encodeRaw cfg (bitsOfBytes (dataSpaceBytes data (dataSpaceCrc num data)))

/-- The CRC of a DECODER_STATE datagram (rule R161): over its first 40 bits, start value 0. -/
def decoderStateCrc (flags : Byte) (count : BitVec 12) (caps : BitVec 16) : Byte :=
  crc8 (octets (bitsOf 40 (0b1101#4 ++ flags ++ count ++ caps).toNat)) 0

/-- `unpack` (rule R169). -/
def unpack (symbols : List (BitVec 6)) : List Bool :=
  symbols.flatMap fun s => bitsOf 6 s.toNat

/-- The 6-bit values of bytes that are all data symbols, else nothing (rules R200, R205). -/
def dataSymbols (cfg : Config) : List Byte → Option (List (BitVec 6))
  | [] => some []
  | b :: rest =>
    match decode4of8 cfg b with
    | .data v => (dataSymbols cfg rest).map (v :: ·)
    | _ => none

end Sys2Proof.Machine
end

