-- ==== Sys2Proof/Syntax.lean ====
section
/-! DEFINITION. The instructions: one constructor per row of spec/opcode_table.json, the events the engine
reacts to (rules R120, R122; log entry 1), and the triggers that present them at a port (rule R420). -/

namespace Sys2Proof

/-- `decoder_class` (rule R25): code 0 Mobile, 1 Stationary. -/
inductive DecoderClass where
  | mobile
  | stationary
deriving DecidableEq, Repr

/-- `status_kind` (rule R25): code 0 STAT1, 1 STAT4. -/
inductive StatusKind where
  | stat1
  | stat4
deriving DecidableEq, Repr

/-- The closed set of message kinds (rule R104). -/
inductive Kind where
  | pom | adrHigh | adrLow | ext | stat4 | drivingInfo | basicInfo | stat1 | time | error | dyn
  | xpom0 | stat2 | xpom1 | xpom2 | xpom3 | cvAuto | block | decoderState | rerail | decoderUnique
  | srq | dataSpace
deriving DecidableEq, Repr

/-- What one round of the polling loop of rule R208 meets: the value of the free-running microsecond input `now_us`
(rule R436), what `available()` answers, and the bytes that `read()` returns one by one, oldest first, before it
returns none (rule R437, log entry 9). -/
structure RxSample where
  now : Word32
  count : Nat
  bytes : List Byte
deriving DecidableEq, Repr

/-- One event of the engine. The docstrings name the rules that give each its meaning. A field named `e` is the
check byte of a packet, a field named `x` holds bits the encoding ignores: both are kept so that no bit of an
encoding is lost. -/
inductive Instr where
  /-- R285, R330, R331. -/
  | dccLogonEnable (group : BitVec 2) (cid : BitVec 16) (session e : Byte)
  /-- R286, R333. -/
  | dccSelect (mfg : BitVec 12) (uid : Word32) (sub : Byte) (params : List Byte) (e : Byte)
  /-- R287, R334; `tail` is the 0 to 2 further bytes, ignored. -/
  | dccLogonAssign (mfg : BitVec 12) (uid : Word32) (akind : BitVec 2) (addr : BitVec 14) (tail : List Byte) (e : Byte)
  /-- R288, R336. -/
  | dccGetDataStart (e : Byte)
  /-- R288, R336. -/
  | dccGetDataCont (e : Byte)
  /-- R289, R336. -/
  | dccSetData (data : List Byte) (e : Byte)
  /-- R289, R336. -/
  | dccSetDataEnd (data : List Byte) (e : Byte)
  /-- R290, R335; `v` is the CV number less one. -/
  | dccPomReadBroadcast (v : BitVec 10) (x e : Byte)
  /-- R290, R335. -/
  | dccPomReadShort (a : BitVec 7) (v : BitVec 10) (x e : Byte)
  /-- R290, R335. -/
  | dccPomReadLong (a : BitVec 14) (v : BitVec 10) (x e : Byte)
  /-- R291, R338. -/
  | dccPomWriteBroadcast (v : BitVec 10) (d e : Byte)
  /-- R291, R338. -/
  | dccPomWriteShort (a : BitVec 7) (v : BitVec 10) (d e : Byte)
  /-- R291, R338. -/
  | dccPomWriteLong (a : BitVec 14) (v : BitVec 10) (d e : Byte)
  /-- R292, R339. -/
  | dccPomWriteBitBroadcast (v : BitVec 10) (x : BitVec 4) (d : Bool) (b : BitVec 3) (e : Byte)
  /-- R292, R339. -/
  | dccPomWriteBitShort (a : BitVec 7) (v : BitVec 10) (x : BitVec 4) (d : Bool) (b : BitVec 3) (e : Byte)
  /-- R292, R339. -/
  | dccPomWriteBitLong (a : BitVec 14) (v : BitVec 10) (x : BitVec 4) (d : Bool) (b : BitVec 3) (e : Byte)
  /-- R294, R340; group one, `d` as transmitted (bit 4 is F0). -/
  | dccFunctionG1Broadcast (d : BitVec 5) (e : Byte)
  /-- R294, R340. -/
  | dccFunctionG1Short (a : BitVec 7) (d : BitVec 5) (e : Byte)
  /-- R294, R340. -/
  | dccFunctionG1Long (a : BitVec 14) (d : BitVec 5) (e : Byte)
  /-- R294, R340; F5 to F8. -/
  | dccFunctionG2F5Broadcast (d : BitVec 4) (e : Byte)
  /-- R294, R340. -/
  | dccFunctionG2F5Short (a : BitVec 7) (d : BitVec 4) (e : Byte)
  /-- R294, R340. -/
  | dccFunctionG2F5Long (a : BitVec 14) (d : BitVec 4) (e : Byte)
  /-- R294, R340; F9 to F12. -/
  | dccFunctionG2F9Broadcast (d : BitVec 4) (e : Byte)
  /-- R294, R340. -/
  | dccFunctionG2F9Short (a : BitVec 7) (d : BitVec 4) (e : Byte)
  /-- R294, R340. -/
  | dccFunctionG2F9Long (a : BitVec 14) (d : BitVec 4) (e : Byte)
  /-- R295, R341 to R344. -/
  | dccExtFunctionBroadcast (c e : Byte)
  /-- R295, R341 to R344. -/
  | dccExtFunctionShort (a : BitVec 7) (c e : Byte)
  /-- R295, R341 to R344. -/
  | dccExtFunctionLong (a : BitVec 14) (c e : Byte)
  /-- R296, R347. -/
  | dccDataSpaceReadBroadcast (n o e : Byte)
  /-- R296, R347. -/
  | dccDataSpaceReadShort (a : BitVec 7) (n o e : Byte)
  /-- R296, R347. -/
  | dccDataSpaceReadLong (a : BitVec 14) (n o e : Byte)
  /-- R293, R337; `h` is the three high address bits as transmitted, inverted. -/
  | dccAccessory (a : BitVec 6) (h : BitVec 3) (c : Bool) (d : BitVec 3) (e : Byte)
  /-- R188 (sent by R230). -/
  | dgPom (value : Byte)
  /-- R190 (sent by R226). -/
  | dgAdrHigh (raw : Byte)
  /-- R191 (sent by R226). -/
  | dgAdrLow (raw : Byte)
  /-- R192 (sent by R243). -/
  | dgExt (type : BitVec 6) (position : Byte)
  /-- R193 (sent by R235). -/
  | dgStat4 (status : Byte)
  /-- R210 (sent by R244). -/
  | dgDrivingInfo (info : Byte)
  /-- R194 (sent by R226, R245). -/
  | dgBasicInfo (info : Byte)
  /-- R193 (sent by R233). -/
  | dgStat1 (status : Byte)
  /-- R195 (sent by R236). -/
  | dgTime (unit : Bool) (value : BitVec 7)
  /-- R195 (sent by R237). -/
  | dgError (code : Byte)
  /-- R197 (sent by R231). -/
  | dgDyn (value : Byte) (subindex : BitVec 6)
  /-- R198 (sent by R232). -/
  | dgXpom0 (d0 d1 d2 d3 : Byte)
  /-- R198 (sent by R232). -/
  | dgXpom1 (d0 d1 d2 d3 : Byte)
  /-- R198 (sent by R232). -/
  | dgXpom2 (d0 d1 d2 d3 : Byte)
  /-- R198 (sent by R232). -/
  | dgXpom3 (d0 d1 d2 d3 : Byte)
  /-- R210 (sent by R234). -/
  | dgStat2 (status : Byte)
  /-- R198 (sent by R238). -/
  | dgCvAuto (cv : BitVec 24) (value : Byte)
  /-- R210 (sent by R246). -/
  | dgBlock (data : Word32)
  /-- R196 (sent by R240); `crc` as it stands on the line, right or wrong. -/
  | dgDecoderState (flags : Byte) (count : BitVec 12) (caps : BitVec 16) (crc : Byte)
  /-- R198 (sent by R241). -/
  | dgRerail (seconds : Byte)
  /-- R198 (sent by R239). -/
  | dgDecoderUnique (mfg : BitVec 12) (product : Word32)
  /-- R210 (sent by R242). -/
  | dgSrq (ext : Bool) (address : BitVec 11)
  /-- R200 (sent by R247); `crc` as it stands on the line, right or wrong. -/
  | dgDataSpace (data : List Byte) (crc : Byte)
  /-- R152, R209. -/
  | symAck1
  /-- R152, R209. -/
  | symAck2
  /-- R152, R209. -/
  | symNack
  /-- R151, R152, R186. -/
  | symData (v : BitVec 6)
  /-- R450. -/
  | opReset
  /-- R395. -/
  | opTxBegin
  /-- R396. -/
  | opTxEnd
  /-- R397. -/
  | opRxBegin
  /-- R398. -/
  | opRxEnd
  /-- R345. -/
  | opCvAutoTick
  /-- R394. -/
  | opSecondTick
  /-- R230. -/
  | opSendPom (value : Byte)
  /-- R226. -/
  | opSendAddress (address : BitVec 14) (long : Bool)
  /-- R231. -/
  | opSendDynamic (value : Byte) (subindex : BitVec 6)
  /-- R232. -/
  | opSendXpom (seq d0 d1 d2 d3 : Byte)
  /-- R233. -/
  | opSendStatus1 (status : Byte)
  /-- R234. -/
  | opSendStatus2 (status : Byte)
  /-- R235. -/
  | opSendStatus4 (status : Byte)
  /-- R236. -/
  | opSendTime (value : Byte) (unit : Bool)
  /-- R237. -/
  | opSendError (code : Byte)
  /-- R238. -/
  | opSendCvAuto (cv : BitVec 24) (value : Byte)
  /-- R239. -/
  | opSendDecoderUnique (mfg : BitVec 12) (product : Word32)
  /-- R240. -/
  | opSendDecoderState (flags : Byte) (count : BitVec 12) (caps : BitVec 16)
  /-- R241. -/
  | opSendRerail (seconds : BitVec 16)
  /-- R242. -/
  | opSendServiceRequest (address : BitVec 16) (ext : Bool)
  /-- R243. -/
  | opSendExt (type : BitVec 6) (position : Byte)
  /-- R244. -/
  | opSendDrivingInfo (info : Byte)
  /-- R245. -/
  | opSendBasicInfo (info : Byte)
  /-- R246. -/
  | opSendBlock (data : Word32)
  /-- R247; `L` is the length of `data`. -/
  | opSendDataSpace (num : Byte) (data : List Byte)
  /-- R382. -/
  | opSetAddress (address : BitVec 14) (long : Bool)
  /-- R383. -/
  | opSetIdentity (mfg : BitVec 12) (product : Word32)
  /-- R384. -/
  | opSetClass (cls : DecoderClass) (kind : StatusKind)
  /-- R388. -/
  | opSetExtInfoEnabled (en : Bool)
  /-- R389. -/
  | opSetExtInfo (info : Byte)
  /-- R399. -/
  | opSetExtPosition (type : BitVec 6) (position : Byte)
  /-- R400. -/
  | opSetDecoderStateFields (flags : Byte) (count : BitVec 12) (caps : BitVec 16)
  /-- R385. -/
  | opCvSet (key : BitVec 24) (value : Byte)
  /-- R386. -/
  | opCvClear
  /-- R387; `len` is the length of `bytes`. -/
  | opDsSet (num : Byte) (bytes : List Byte)
  /-- R393. -/
  | opDsClear
  /-- R392. -/
  | opLogonReset
  /-- R391. -/
  | opRxSetContext (ctx : BitVec 2)
  /-- R390. -/
  | opRxExpectDataSpace (num : Byte)
  /-- R206. -/
  | opRxCacheTimeout
  /-- R207, R208; `line` is what the transport and `now_us` show during the operation. -/
  | opRxRead (timeoutUs : Word32) (line : List RxSample)
  /-- R320, on the raw packet. -/
  | trigDccPacket (pkt : List Byte)
  /-- R260. -/
  | trigCutoutStart (elapsedUs : Word32)
deriving DecidableEq, Repr

/-- The external triggers of rule R420 as they stand at the ports: what the engine fetches in place of an
instruction word. -/
inductive Trigger where
  /-- The block's reset input (rule R450). -/
  | resetInput
  /-- `cutout_start(elapsed_us)` (rule R260). -/
  | cutout (elapsedUs : Word32)
  /-- `dcc_packet(PKT, len)`: the bytes `PKT[0 .. len-1]` (rule R71, log entry 7). -/
  | dcc (pkt : List Byte)
  /-- The host port (rule R120): an operation code, its arguments in bytes (log entry 6) and, for `rx_read`, what
  the transport shows meanwhile. -/
  | host (code : Byte) (args : List Byte) (line : List RxSample)
  /-- A read that takes one byte from the line (log entry 1). -/
  | symbol (b : Byte)
  /-- A read that takes from the line exactly the bytes of a datagram its sender built as kind `k` (log entry 15). -/
  | datagram (k : Kind) (bytes : List Byte)
deriving DecidableEq, Repr

end Sys2Proof
end

