-- ==== Sys2Proof/Machine/State.lean ====
section
/-! DEFINITION. The architectural state (10_state.md), the outputs of an operation (rule R426), the ways a step
could stop, and the state after reset (rule R52). -/

namespace Sys2Proof.Machine

/-- The address form of a mobile packet (rule R112). -/
inductive AddrForm where
  | broadcast
  | short
  | long
deriving DecidableEq, Repr

/-- The classified command (rule R281). -/
inductive Cmd where
  | none
  | logonEnable (group : BitVec 2) (cid : BitVec 16) (session : Byte)
  | select (mfg : BitVec 12) (uid : Word32) (sub : Byte) (params : List Byte)
  | logonAssign (mfg : BitVec 12) (uid : Word32) (akind : BitVec 2) (address : BitVec 14)
  | getDataStart
  | getDataCont
  | setData (data : List Byte)
  | setDataEnd (data : List Byte)
  | pomRead (form : AddrForm) (address : BitVec 14) (cv : BitVec 11)
  | pomWrite (form : AddrForm) (address : BitVec 14) (cv : BitVec 11) (value : Byte)
  | pomWriteBit (form : AddrForm) (address : BitVec 14) (cv : BitVec 11) (bit : BitVec 3) (value : Bool)
  | accessory (address : BitVec 9) (activate : Bool) (output : BitVec 3)
  | function (form : AddrForm) (address : BitVec 14) (number : Nat) (state : BitVec 5)
  | extFunction (form : AddrForm) (address : BitVec 14) (command : Byte)
  | dataSpaceRead (form : AddrForm) (address : BitVec 14) (spaceNum startOffset : Byte)
deriving DecidableEq, Repr

/-- The message variants (rule R180). In `dataSpace`, `L` is the length of `data`. -/
inductive Msg where
  | pom (value : Byte)
  | adrHigh (raw : Byte)
  | adrLow (raw : Byte) (address : BitVec 14) (paired : Bool)
  | ext (type : BitVec 6) (position : Byte)
  | stat1 (status : Byte)
  | stat2 (status : Byte)
  | stat4 (status : Byte)
  | drivingInfo (info : Byte)
  | basicInfo (info : Byte)
  | time (unit : Bool) (value : BitVec 7)
  | error (code : Byte)
  | dyn (value : Byte) (subindex : BitVec 6)
  | xpom (seq : BitVec 2) (d0 d1 d2 d3 : Byte)
  | cvAuto (cv : BitVec 24) (value : Byte)
  | block (data : Word32)
  | decoderState (flags : Byte) (count : BitVec 12) (caps : BitVec 16) (crc : Byte) (crcValid : Bool)
  | rerail (seconds : Byte)
  | decoderUnique (mfg : BitVec 12) (product : Word32)
  | srq (ext : Bool) (address : BitVec 11)
  | dataSpace (num lenByte : Byte) (data : List Byte) (crc : Byte) (crcValid : Bool)
deriving DecidableEq, Repr

/-- The two transport handles (rule R401). -/
inductive Handle where
  | tx
  | rx
deriving DecidableEq, Repr

/-- A call on the transport interface (rule R437) with what it returned, in the order made: `read` returns a byte or
none. `waitUntil w` is no transport call: it marks where `cutout_start` waits until `w` microseconds after its own
start (rule R260, log entry 8). -/
inductive Call where
  | beginPort (h : Handle)
  | endPort (h : Handle)
  | available (h : Handle) (count : Nat)
  | read (h : Handle) (b : Option Byte)
  | write (h : Handle) (bytes : List Byte)
  | setBaudrate (h : Handle) (rate : Nat)
  | waitForTransmitComplete (h : Handle)
  | waitUntil (w : Nat)
deriving DecidableEq, Repr

/-- The outputs of the operation that completed last (rule R426); `none` where that operation has no such output
(log entry 10). -/
structure Out where
  /-- `cmd_out` (rules R38, R281). -/
  cmdOut : Option Cmd := Option.none
  /-- `response_triggered` (rule R321). -/
  responseTriggered : Option Bool := Option.none
  /-- The list a read returns (rule R207). -/
  messages : Option (List Msg) := Option.none
  /-- The transport calls made (rule R426). -/
  calls : List Call := []
deriving DecidableEq, Repr

/-- One of the two channels of a cutout (rule R43). -/
inductive Channel where
  | one
  | two
deriving DecidableEq, Repr

/-- A ready-to-transmit byte group (rule R43). -/
abbrev Entry := List Byte

/-- The CV map: pairs (key, value) in insertion order (rule R44). -/
abbrev CvMap := List (BitVec 24 × Byte)

/-- A record of the data-space store (rule R45); `ds_len` is the length of `bytes`. -/
structure DsRecord where
  num : Byte
  bytes : List Byte
deriving DecidableEq, Repr

/-- `logon_state` (rule R30), codes 0 to 4 in this order. -/
inductive LogonState where
  | idle
  | waitingForLogon
  | inSingulation
  | announced
  | registered
deriving DecidableEq, Repr

/-- `rx_context` (rule R28), codes 0 to 2 in this order. -/
inductive RxContext where
  | unknown
  | mobile
  | stationary
deriving DecidableEq, Repr

/-- `rx_state` (rule R46): code 0 Idle, 1 Reading. -/
inductive RxState where
  | idle
  | reading
deriving DecidableEq, Repr

/-- The decoder half of the state (rule R20). -/
structure Decoder where
  /-- `address` (R24). -/
  address : BitVec 14
  /-- `addr_long` (R24). -/
  addrLong : Bool
  /-- `mfg_id` (R24). -/
  mfgId : BitVec 12
  /-- `product_id` (R24). -/
  productId : Word32
  /-- `decoder_class` (R25). -/
  decoderClass : DecoderClass
  /-- `status_kind` (R25). -/
  statusKind : StatusKind
  /-- `ext_info_enabled` (R26). -/
  extInfoEnabled : Bool
  /-- `ext_info` (R26). -/
  extInfo : Byte
  /-- `ext_type` (R26). -/
  extType : BitVec 6
  /-- `ext_position` (R26). -/
  extPosition : Byte
  /-- `ds_flags` (R27). -/
  dsFlags : Byte
  /-- `ds_count` (R27). -/
  dsCount : BitVec 12
  /-- `ds_caps` (R27). -/
  dsCaps : BitVec 16
  /-- `logon_state` (R30). -/
  logonState : LogonState
  /-- `backoff_counter` (R31). -/
  backoffCounter : Word32
  /-- `backoff_value` (R31). -/
  backoffValue : Word32
  /-- `ch1_broadcast_enabled` (R32). -/
  ch1BroadcastEnabled : Bool
  /-- `accessory_mask` (R33). -/
  accessoryMask : Byte
  /-- `cv_auto_active` (R34). -/
  cvAutoActive : Bool
  /-- `cv_cursor` (R35). -/
  cvCursor : Nat
  /-- `rot_index` (R36). -/
  rotIndex : Fin 3
  /-- `uptime_s` (R37). -/
  uptimeS : Word32
  /-- `ch1_q` (R43), head first. -/
  ch1Q : List Entry
  /-- `ch2_q` (R43), head first. -/
  ch2Q : List Entry
  /-- `CV` (R44). -/
  cv : CvMap
  /-- `DS` (R45). -/
  ds : List DsRecord
deriving DecidableEq, Repr

/-- The receiver half of the state (rule R20). -/
structure Receiver where
  /-- `rx_context` (R28). -/
  rxContext : RxContext
  /-- `rx_state` (R46). -/
  rxState : RxState
  /-- `rx_acc` (R47), first accumulated bit first; `rx_acc_len` is its length. -/
  rxAcc : List Bool
  /-- `rx_total` (R48). -/
  rxTotal : BitVec 6
  /-- `rx_adr_high` (R49). -/
  rxAdrHigh : Byte
  /-- `rx_expect_ds` (R50). -/
  rxExpectDs : Bool
  /-- `rx_expect_ds_num` (R50). -/
  rxExpectDsNum : Byte
deriving DecidableEq, Repr

/-- The engine: its two halves (rule R20), and the model's own fields: the parameters (rule R9, log entry 4), the
triggers waiting at the ports in the order presented (rule R425, log entry 2) and the last operation's outputs
(rule R426, log entry 10). -/
structure State where
  cfg : Config
  dec : Decoder
  rcv : Receiver
  port : List Trigger
  out : Out
deriving DecidableEq, Repr

/-- How a step could stop with a fault: in no way. Rule R410: the engine raises no exception and every operation
completes; 93_implementation_defined.md gives no behaviour the treatment `fault`. -/
inductive Fault where
deriving DecidableEq, Repr

/-- How a step could be refused. -/
inductive Refusal where
  /-- Raised by an arm of `exec` whose instruction has no meaning yet (none is left). Safe: the model stops where
  the engine goes on. -/
  | notModelled (mnemonic : String)
deriving DecidableEq, Repr

/-- The decoder half after `reset` (rule R52). -/
def Decoder.reset : Decoder where
  address := 3
  addrLong := false
  mfgId := 0
  productId := 0
  decoderClass := .mobile
  statusKind := .stat1
  extInfoEnabled := false
  extInfo := 0
  extType := 0
  extPosition := 0
  dsFlags := 0
  dsCount := 0
  dsCaps := 0
  logonState := .idle
  backoffCounter := 0
  backoffValue := 1
  ch1BroadcastEnabled := true
  accessoryMask := 0
  cvAutoActive := false
  cvCursor := 0
  rotIndex := 0
  uptimeS := 0
  ch1Q := []
  ch2Q := []
  cv := []
  ds := []

/-- The receiver half after `reset` (rule R52). -/
def Receiver.reset : Receiver where
  rxContext := .unknown
  rxState := .idle
  rxAcc := []
  rxTotal := 0
  rxAdrHigh := 0
  rxExpectDs := false
  rxExpectDsNum := 0

/-- The engine right after `reset` (rule R52), instantiated with the default parameters of rule R9, with no trigger
waiting. DESIGN CHOICE (log entry 22): the values of the model's own fields. -/
def State.reset : State where
  cfg := Config.default
  dec := Decoder.reset
  rcv := Receiver.reset
  port := []
  out := {}

end Sys2Proof.Machine
end

