-- ==== Sys2Proof/Machine/Operands.lean ====
section
/-! DEFINITION. Operand forms: how the fields of a packet, of a payload and of a host argument are put together. -/

namespace Sys2Proof.Machine

/-- The CV number of a program-on-main command (rule R114): the 10-bit field plus one, in 11 bits. -/
def cvNumber (v : BitVec 10) : BitVec 11 := v.setWidth 11 + 1

/-- The 14-bit address of the short form (rule R112). -/
def shortAddress (a : BitVec 7) : BitVec 14 := a.setWidth 14

/-- The 9-bit accessory address (rule R115): the three high bits are inverted on the wire. -/
def accessoryAddress (a : BitVec 6) (h : BitVec 3) : BitVec 9 := ~~~h ++ a

/-- The state field of function group one (rule R116): bit 4 of the instruction is F0, bits 3 to 0 are F1 to F4. -/
def functionG1State (d : BitVec 5) : BitVec 5 := d.extractLsb' 0 4 ++ d.extractLsb' 4 1

/-- The state field of the other two groups (rule R116): bit 4 is 0. -/
def functionG2State (d : BitVec 4) : BitVec 5 := 0#1 ++ d

/-- Field `p[lo+w-1 : lo]` of a payload (rule R11). -/
def payloadField (p lo w : Nat) : BitVec w := BitVec.ofNat w (p >>> lo)

/-- Byte `i` of a host operation's arguments; one that is not presented reads as zero (log entry 6). -/
def arg8 (args : List Byte) (i : Nat) : Byte := args.getD i 0

/-- Two argument bytes, the first the more significant (log entry 6). -/
def arg16 (args : List Byte) (i : Nat) : BitVec 16 := arg8 args i ++ arg8 args (i + 1)

/-- Three argument bytes, the first the most significant (log entry 6). -/
def arg24 (args : List Byte) (i : Nat) : BitVec 24 := arg8 args i ++ arg16 args (i + 1)

/-- Four argument bytes, the first the most significant (log entry 6). -/
def arg32 (args : List Byte) (i : Nat) : BitVec 32 := arg8 args i ++ arg24 args (i + 1)

/-- A 1-bit argument: its byte truncated to bit 0 (rule R381). -/
def argBit (args : List Byte) (i : Nat) : Bool := (arg8 args i).getLsbD 0

/-- `n` argument bytes from index `i` on; those not presented read as zero. -/
def argBytes (args : List Byte) (i n : Nat) : List Byte :=
  ((args.drop i) ++ List.replicate n 0).take n

/-- The bytes of a 16-bit argument, most significant first. -/
def bytes16 (v : BitVec 16) : List Byte := [v.extractLsb' 8 8, v.extractLsb' 0 8]

/-- The bytes of a 24-bit argument, most significant first. -/
def bytes24 (v : BitVec 24) : List Byte := [v.extractLsb' 16 8, v.extractLsb' 8 8, v.extractLsb' 0 8]

/-- The bytes of a 32-bit argument, most significant first. -/
def bytes32 (v : BitVec 32) : List Byte :=
  [v.extractLsb' 24 8, v.extractLsb' 16 8, v.extractLsb' 8 8, v.extractLsb' 0 8]

/-- The byte of a 1-bit argument. -/
def byteBit (b : Bool) : Byte := (BitVec.ofBool b).setWidth 8

/-- `decoder_class` by its code (rule R25). -/
def classOfBit (b : Bool) : DecoderClass := if b then .stationary else .mobile

/-- The code of a decoder class (rule R25). -/
def bitOfClass : DecoderClass → Bool
  | .mobile => false
  | .stationary => true

/-- `status_kind` by its code (rule R25). -/
def kindOfBit (b : Bool) : StatusKind := if b then .stat4 else .stat1

/-- The code of a status kind (rule R25). -/
def bitOfKind : StatusKind → Bool
  | .stat1 => false
  | .stat4 => true

/-- `rx_context` by its code; 3 stores 0 (rules R28, R391). -/
def contextOfCode (c : BitVec 2) : RxContext :=
  if c = 1 then .mobile else if c = 2 then .stationary else .unknown

/-- The code of a logon state (rule R30). -/
def logonCode : LogonState → Nat
  | .idle => 0
  | .waitingForLogon => 1
  | .inSingulation => 2
  | .announced => 3
  | .registered => 4

end Sys2Proof.Machine
end

