-- ==== Sys2Proof/Machine/Wire.lean ====
section
/-! DEFINITION. The wire bytes of each datagram kind: its ID and payload width (rule R104), its payload layout
(rule R105), packed by the Codec (rules R103, R106 to R108). Both the send operations and the datagrams on the
receive line are made of these. -/

namespace Sys2Proof.Machine

/-- POM: ID 0, `value[8]`. -/
def wirePom (cfg : Config) (value : Byte) : List Byte := encodeDatagram cfg 0 value.toNat 8

/-- ADR_HIGH: ID 1, `raw[8]`. -/
def wireAdrHigh (cfg : Config) (raw : Byte) : List Byte := encodeDatagram cfg 1 raw.toNat 8

/-- ADR_LOW: ID 2, `raw[8]`. -/
def wireAdrLow (cfg : Config) (raw : Byte) : List Byte := encodeDatagram cfg 2 raw.toNat 8

/-- EXT: ID 3, `type[6] ‖ position[8]`. -/
def wireExt (cfg : Config) (type : BitVec 6) (position : Byte) : List Byte :=
  encodeDatagram cfg 3 (type ++ position).toNat 14

/-- STAT4: ID 3, `status[8]`. -/
def wireStat4 (cfg : Config) (status : Byte) : List Byte := encodeDatagram cfg 3 status.toNat 8

/-- DRIVING_INFO: ID 3, `info[8]`. -/
def wireDrivingInfo (cfg : Config) (info : Byte) : List Byte := encodeDatagram cfg 3 info.toNat 8

/-- BASIC_INFO: ID 4, `info[8]`. -/
def wireBasicInfo (cfg : Config) (info : Byte) : List Byte := encodeDatagram cfg 4 info.toNat 8

/-- STAT1: ID 4, `status[8]`. -/
def wireStat1 (cfg : Config) (status : Byte) : List Byte := encodeDatagram cfg 4 status.toNat 8

/-- TIME: ID 5, `unit[1] ‖ value[7]`. -/
def wireTime (cfg : Config) (unit : Bool) (value : BitVec 7) : List Byte :=
  encodeDatagram cfg 5 (BitVec.ofBool unit ++ value).toNat 8

/-- ERROR: ID 6, `code[8]`. -/
def wireError (cfg : Config) (code : Byte) : List Byte := encodeDatagram cfg 6 code.toNat 8

/-- DYN: ID 7, `value[8] ‖ subindex[6]`. -/
def wireDyn (cfg : Config) (value : Byte) (subindex : BitVec 6) : List Byte :=
  encodeDatagram cfg 7 (value ++ subindex).toNat 14

/-- XPOM_n: ID `8 + n`, `d0[8] ‖ d1[8] ‖ d2[8] ‖ d3[8]`. -/
def wireXpom (cfg : Config) (seq : BitVec 2) (d0 d1 d2 d3 : Byte) : List Byte :=
  encodeDatagram cfg (0b10#2 ++ seq) (d0 ++ d1 ++ d2 ++ d3).toNat 32

/-- STAT2: ID 8, `status[8]`. -/
def wireStat2 (cfg : Config) (status : Byte) : List Byte := encodeDatagram cfg 8 status.toNat 8

/-- CV_AUTO: ID 12, `cv[24] ‖ value[8]`. -/
def wireCvAuto (cfg : Config) (cv : BitVec 24) (value : Byte) : List Byte :=
  encodeDatagram cfg 12 (cv ++ value).toNat 32

/-- BLOCK: ID 13, `data[32]`. -/
def wireBlock (cfg : Config) (data : Word32) : List Byte := encodeDatagram cfg 13 data.toNat 32

/-- DECODER_STATE: ID 13, `flags[8] ‖ count[12] ‖ caps[16] ‖ crc[8]`. -/
def wireDecoderState (cfg : Config) (flags : Byte) (count : BitVec 12) (caps : BitVec 16) (crc : Byte) : List Byte :=
  encodeDatagram cfg 13 (flags ++ count ++ caps ++ crc).toNat 44

/-- RERAIL: ID 14, `seconds[8]`. -/
def wireRerail (cfg : Config) (seconds : Byte) : List Byte := encodeDatagram cfg 14 seconds.toNat 8

/-- DECODER_UNIQUE: ID 15, `mfg[12] ‖ product[32]`. -/
def wireDecoderUnique (cfg : Config) (mfg : BitVec 12) (product : Word32) : List Byte :=
  encodeDatagram cfg 15 (mfg ++ product).toNat 44

/-- SRQ: no ID, `ext[1] ‖ address[11]`. -/
def wireSrq (cfg : Config) (ext : Bool) (address : BitVec 11) : List Byte :=
  encodeServiceRequest cfg address ext

/-- DATA_SPACE with the CRC byte as given: no ID. -/
def wireDataSpace (cfg : Config) (data : List Byte) (crc : Byte) : List Byte :=
  encodeRaw cfg (bitsOfBytes (dataSpaceBytes data crc))

end Sys2Proof.Machine
end

