-- ==== Sys2Proof/WellFormed.lean ====
section
/-! DEFINITION. When an instruction has an encoding: the range conditions of rules R111 to R118, R108 and R120
that a field's width does not already say. -/

namespace Sys2Proof

/-- A short address byte is 0x01 to 0x7F (rule R112): 0 is the Broadcast form. -/
def shortOk (a : BitVec 7) : Bool := a != 0

/-- The first byte of a long address is 0xC0 to 0xE7 (rule R112). -/
def longOk (a : BitVec 14) : Bool := decide ((a.extractLsb' 8 6).toNat ≤ 0x27)

/-- The instruction has an encoding. -/
def Instr.wf (i : Instr) : Bool :=
  match i with
  | .dccLogonEnable _ _ _ _ => true
  | .dccSelect _ _ _ params _ => decide (params.length ≤ 3)
  | .dccLogonAssign _ _ _ _ tail _ => decide (tail.length ≤ 2)
  | .dccGetDataStart _ => true
  | .dccGetDataCont _ => true
  | .dccSetData data _ => decide (data.length ≤ 9)
  | .dccSetDataEnd data _ => decide (data.length ≤ 9)
  | .dccPomReadBroadcast _ _ _ => true
  | .dccPomReadShort a _ _ _ => shortOk a
  | .dccPomReadLong a _ _ _ => longOk a
  | .dccPomWriteBroadcast _ _ _ => true
  | .dccPomWriteShort a _ _ _ => shortOk a
  | .dccPomWriteLong a _ _ _ => longOk a
  | .dccPomWriteBitBroadcast _ _ _ _ _ => true
  | .dccPomWriteBitShort a _ _ _ _ _ => shortOk a
  | .dccPomWriteBitLong a _ _ _ _ _ => longOk a
  | .dccFunctionG1Broadcast _ _ => true
  | .dccFunctionG1Short a _ _ => shortOk a
  | .dccFunctionG1Long a _ _ => longOk a
  | .dccFunctionG2F5Broadcast _ _ => true
  | .dccFunctionG2F5Short a _ _ => shortOk a
  | .dccFunctionG2F5Long a _ _ => longOk a
  | .dccFunctionG2F9Broadcast _ _ => true
  | .dccFunctionG2F9Short a _ _ => shortOk a
  | .dccFunctionG2F9Long a _ _ => longOk a
  | .dccExtFunctionBroadcast _ _ => true
  | .dccExtFunctionShort a _ _ => shortOk a
  | .dccExtFunctionLong a _ _ => longOk a
  | .dccDataSpaceReadBroadcast _ _ _ => true
  | .dccDataSpaceReadShort a _ _ _ => shortOk a
  | .dccDataSpaceReadLong a _ _ _ => longOk a
  | .dccAccessory _ _ _ _ _ => true
  | .dgPom _ => true
  | .dgAdrHigh _ => true
  | .dgAdrLow _ => true
  | .dgExt _ _ => true
  | .dgStat4 _ => true
  | .dgDrivingInfo _ => true
  | .dgBasicInfo _ => true
  | .dgStat1 _ => true
  | .dgTime _ _ => true
  | .dgError _ => true
  | .dgDyn _ _ => true
  | .dgXpom0 _ _ _ _ => true
  | .dgXpom1 _ _ _ _ => true
  | .dgXpom2 _ _ _ _ => true
  | .dgXpom3 _ _ _ _ => true
  | .dgStat2 _ => true
  | .dgCvAuto _ _ => true
  | .dgBlock _ => true
  | .dgDecoderState _ _ _ _ => true
  | .dgRerail _ => true
  | .dgDecoderUnique _ _ => true
  | .dgSrq _ _ => true
  | .dgDataSpace data _ => decide (data.length ≤ dsMaxPayload)
  | .symAck1 => true
  | .symAck2 => true
  | .symNack => true
  | .symData _ => true
  | .opReset => true
  | .opTxBegin => true
  | .opTxEnd => true
  | .opRxBegin => true
  | .opRxEnd => true
  | .opCvAutoTick => true
  | .opSecondTick => true
  | .opSendPom _ => true
  | .opSendAddress _ _ => true
  | .opSendDynamic _ _ => true
  | .opSendXpom _ _ _ _ _ => true
  | .opSendStatus1 _ => true
  | .opSendStatus2 _ => true
  | .opSendStatus4 _ => true
  | .opSendTime _ _ => true
  | .opSendError _ => true
  | .opSendCvAuto _ _ => true
  | .opSendDecoderUnique _ _ => true
  | .opSendDecoderState _ _ _ => true
  | .opSendRerail _ => true
  | .opSendServiceRequest _ _ => true
  | .opSendExt _ _ => true
  | .opSendDrivingInfo _ => true
  | .opSendBasicInfo _ => true
  | .opSendBlock _ => true
  | .opSendDataSpace _ bytes => decide (bytes.length ≤ 255)
  | .opSetAddress _ _ => true
  | .opSetIdentity _ _ => true
  | .opSetClass _ _ => true
  | .opSetExtInfoEnabled _ => true
  | .opSetExtInfo _ => true
  | .opSetExtPosition _ _ => true
  | .opSetDecoderStateFields _ _ _ => true
  | .opCvSet _ _ => true
  | .opCvClear => true
  | .opDsSet _ bytes => decide (bytes.length ≤ 255)
  | .opDsClear => true
  | .opLogonReset => true
  | .opRxSetContext _ => true
  | .opRxExpectDataSpace _ => true
  | .opRxCacheTimeout => true
  | .opRxRead _ _ => true
  | .trigDccPacket pkt => decide (pkt.length ≤ 15)
  | .trigCutoutStart _ => true

end Sys2Proof
end

