-- ==== Sys2Proof/Decode.lean ====
section
/-! DEFINITION. From the triggers at the ports to instructions and back: the DCC packet formats (rules R111 to R118),
the host operation codes (rule R120), the symbols and datagrams of the receive line (rules R100 to R108). The encoder
stands after the decoder. -/

namespace Sys2Proof

open Sys2Proof.Machine

/-- Why a trigger is no instruction, by name. -/
inductive Reject where
  /-- The host port carries a code rule R120 does not list; the engine ignores it (rule R381). -/
  | unlistedOpCode (code : Byte)
deriving DecidableEq, Repr

/-- The part of a mobile packet after its address bytes (rules R114, R116 to R118). -/
inductive MobileBody where
  | pomRead (v : BitVec 10) (x e : Byte)
  | pomWrite (v : BitVec 10) (d e : Byte)
  | pomWriteBit (v : BitVec 10) (x : BitVec 4) (d : Bool) (b : BitVec 3) (e : Byte)
  | functionG1 (d : BitVec 5) (e : Byte)
  | functionG2F5 (d : BitVec 4) (e : Byte)
  | functionG2F9 (d : BitVec 4) (e : Byte)
  | extFunction (c e : Byte)
  | dataSpaceRead (n o e : Byte)
deriving DecidableEq, Repr

/-- The instruction of a mobile packet in the Broadcast form. -/
def mobileBroadcast : MobileBody → Instr
  | .pomRead v x e => .dccPomReadBroadcast v x e
  | .pomWrite v d e => .dccPomWriteBroadcast v d e
  | .pomWriteBit v x d b e => .dccPomWriteBitBroadcast v x d b e
  | .functionG1 d e => .dccFunctionG1Broadcast d e
  | .functionG2F5 d e => .dccFunctionG2F5Broadcast d e
  | .functionG2F9 d e => .dccFunctionG2F9Broadcast d e
  | .extFunction c e => .dccExtFunctionBroadcast c e
  | .dataSpaceRead n o e => .dccDataSpaceReadBroadcast n o e

/-- The instruction of a mobile packet in the Short form. -/
def mobileShort (a : BitVec 7) : MobileBody → Instr
  | .pomRead v x e => .dccPomReadShort a v x e
  | .pomWrite v d e => .dccPomWriteShort a v d e
  | .pomWriteBit v x d b e => .dccPomWriteBitShort a v x d b e
  | .functionG1 d e => .dccFunctionG1Short a d e
  | .functionG2F5 d e => .dccFunctionG2F5Short a d e
  | .functionG2F9 d e => .dccFunctionG2F9Short a d e
  | .extFunction c e => .dccExtFunctionShort a c e
  | .dataSpaceRead n o e => .dccDataSpaceReadShort a n o e

/-- The instruction of a mobile packet in the Long form. -/
def mobileLong (a : BitVec 14) : MobileBody → Instr
  | .pomRead v x e => .dccPomReadLong a v x e
  | .pomWrite v d e => .dccPomWriteLong a v d e
  | .pomWriteBit v x d b e => .dccPomWriteBitLong a v x d b e
  | .functionG1 d e => .dccFunctionG1Long a d e
  | .functionG2F5 d e => .dccFunctionG2F5Long a d e
  | .functionG2F9 d e => .dccFunctionG2F9Long a d e
  | .extFunction c e => .dccExtFunctionLong a c e
  | .dataSpaceRead n o e => .dccDataSpaceReadLong a n o e

/-- A body of four bytes: the program-on-main commands and Data-Space-Read, in the order of rule R280. -/
def decodeBody4 (cfg : Config) (i b1 b2 e : Byte) : Option MobileBody :=
  if i.extractLsb' 2 6 = 0b111001#6 then some (.pomRead (i.extractLsb' 0 2 ++ b1) b2 e)
  else if i.extractLsb' 2 6 = 0b111011#6 then some (.pomWrite (i.extractLsb' 0 2 ++ b1) b2 e)
  else if i.extractLsb' 2 6 = 0b111010#6 then
    some (.pomWriteBit (i.extractLsb' 0 2 ++ b1) (b2.extractLsb' 4 4) (b2.getLsbD 3) (b2.extractLsb' 0 3) e)
  else if i = cfg.dsReadMarker then some (.dataSpaceRead b1 b2 e)
  else none

/-- A body of two bytes: the function groups (rule R116). -/
def decodeBody2 (i e : Byte) : Option MobileBody :=
  if i.extractLsb' 5 3 = 0b100#3 then some (.functionG1 (i.extractLsb' 0 5) e)
  else if i.extractLsb' 4 4 = 0b1011#4 then some (.functionG2F5 (i.extractLsb' 0 4) e)
  else if i.extractLsb' 4 4 = 0b1010#4 then some (.functionG2F9 (i.extractLsb' 0 4) e)
  else none

/-- The bytes after the address, by their number (rules R114, R116 to R118). -/
def decodeBody (cfg : Config) (rest : List Byte) : Option MobileBody :=
  match rest with
  | [i, e] => decodeBody2 i e
  | [i, c, e] => if i = 0xDE#8 then some (.extFunction c e) else none
  | [i, b1, b2, e] => decodeBody4 cfg i b1 b2 e
  | _ => none

/-- A byte string split into all but its last byte and its last byte. -/
def splitLast : List Byte → Option (List Byte × Byte)
  | [] => none
  | [b] => some ([], b)
  | b :: c :: rest =>
    match splitLast (c :: rest) with
    | some (init, last) => some (b :: init, last)
    | none => none

/-- SET_DATA and SET_DATA_END (rule R289): the bytes after the command byte. -/
def decodeData (mk : List Byte → Byte → Instr) (rest : List Byte) : Option Instr :=
  match splitLast rest with
  | some (data, e) => some (mk data e)
  | none => none

/-- LOGON_ENABLE (rule R285). -/
def decodeLogonEnable (c : Byte) (rest : List Byte) : Option Instr :=
  match rest with
  | [c1, c0, session, e] => some (.dccLogonEnable (c.extractLsb' 0 2) (c1 ++ c0) session e)
  | _ => none

/-- SELECT (rule R286). -/
def decodeSelect (c : Byte) (rest : List Byte) : Option Instr :=
  match rest with
  | m :: u3 :: u2 :: u1 :: u0 :: sub :: tail =>
    match splitLast tail with
    | some (params, e) =>
      if params.length ≤ 3 then some (.dccSelect (c.extractLsb' 0 4 ++ m) (u3 ++ u2 ++ u1 ++ u0) sub params e) else none
    | none => none
  | _ => none

/-- LOGON_ASSIGN (rule R287). -/
def decodeLogonAssign (c : Byte) (rest : List Byte) : Option Instr :=
  match rest with
  | m :: u3 :: u2 :: u1 :: u0 :: ka :: a0 :: tail =>
    match splitLast tail with
    | some (more, e) =>
      if more.length ≤ 2 then
        some (.dccLogonAssign (c.extractLsb' 0 4 ++ m) (u3 ++ u2 ++ u1 ++ u0) (ka.extractLsb' 6 2)
          (ka.extractLsb' 0 6 ++ a0) more e)
      else none
    | none => none
  | _ => none

/-- The logon packets after their first byte 0xFE (rules R113, R284). -/
def decodeDcca (rest : List Byte) : Option Instr :=
  match rest with
  | [] => none
  | c :: tail =>
    if c.extractLsb' 2 6 = 0b111111#6 then decodeLogonEnable c tail
    else if c.extractLsb' 4 4 = 0b1101#4 then decodeSelect c tail
    else if c.extractLsb' 4 4 = 0b1110#4 then decodeLogonAssign c tail
    else if c = 0x00 then (match tail with | [e] => some (.dccGetDataStart e) | _ => none)
    else if c = 0x01 then (match tail with | [e] => some (.dccGetDataCont e) | _ => none)
    else if c = 0x02 then decodeData .dccSetData tail
    else if c = 0x03 then decodeData .dccSetDataEnd tail
    else none

/-- The basic accessory packet (rule R115). -/
def decodeAccessory (b0 : Byte) (rest : List Byte) : Option Instr :=
  match rest with
  | [b1, e] =>
    if b1.getLsbD 7 then
      some (.dccAccessory (b0.extractLsb' 0 6) (b1.extractLsb' 4 3) (b1.getLsbD 3) (b1.extractLsb' 0 3) e)
    else none
  | _ => none

/-- The packet formats by the partition of the first byte (rules R112, R283). -/
def decodeFormat (cfg : Config) (pkt : List Byte) : Option Instr :=
  match pkt with
  | [] => none
  | b0 :: rest =>
    if b0 = dccaAddr then decodeDcca rest
    else if b0.extractLsb' 6 2 = 0b10#2 then decodeAccessory b0 rest
    else if b0 = 0x00 then (decodeBody cfg rest).map mobileBroadcast
    else if b0.extractLsb' 7 1 = 0b0#1 then (decodeBody cfg rest).map (mobileShort (b0.extractLsb' 0 7))
    else if b0.toNat ≤ 0xE7 then
      match rest with
      | [] => none
      | b1 :: rest' => (decodeBody cfg rest').map (mobileLong (b0.extractLsb' 0 6 ++ b1))
    else none

/-- The instruction of a packet's format, if it has one (rules R111, R282). -/
def packetRow (cfg : Config) (pkt : List Byte) : Option Instr :=
  if pkt.length < 3 ∨ dccPktMax < pkt.length then none else decodeFormat cfg pkt

/-- A DCC packet: the instruction of its format, or the packet as it is (rules R119, R297). -/
def decodeDcc (cfg : Config) (pkt : List Byte) : Instr := (packetRow cfg pkt).getD (.trigDccPacket pkt)

/-- The payload of a datagram whose bits are `id` and `n` further bits; nothing for other bits. -/
def payloadOf (id : BitVec 4) (n : Nat) (bits : List Bool) : Option Nat :=
  if bits.length = 4 + n ∧ bitsVal (bits.take 4) = id.toNat then some (bitsVal (bits.drop 4)) else none

/-- An extended-POM datagram of sequence `seq` (rule R105). -/
def decodeXpom (seq : BitVec 2) (mk : Byte → Byte → Byte → Byte → Instr) (bits : List Bool) : Option Instr :=
  (payloadOf (0b10#2 ++ seq) 32 bits).map fun p =>
    mk (payloadField p 24 8) (payloadField p 16 8) (payloadField p 8 8) (payloadField p 0 8)

/-- A data-space response (rule R108): the length byte as sent, the data, the CRC byte, zero padding. -/
def decodeDataSpace (cfg : Config) (bytes : List Byte) (bits : List Bool) : Option Instr :=
  match octets bits with
  | [] => none
  | _ :: rest =>
    match splitLast rest with
    | none => none
    | some (data, crc) =>
      if data.length ≤ dsMaxPayload ∧ wireDataSpace cfg data crc = bytes then some (.dgDataSpace data crc) else none

/-- A datagram built as kind `k`, from the bits of its symbols (rules R104, R105, R107). -/
def decodeKind (cfg : Config) (k : Kind) (bytes : List Byte) (bits : List Bool) : Option Instr :=
  match k with
  | .pom => (payloadOf 0 8 bits).map fun p => .dgPom (payloadField p 0 8)
  | .adrHigh => (payloadOf 1 8 bits).map fun p => .dgAdrHigh (payloadField p 0 8)
  | .adrLow => (payloadOf 2 8 bits).map fun p => .dgAdrLow (payloadField p 0 8)
  | .ext => (payloadOf 3 14 bits).map fun p => .dgExt (payloadField p 8 6) (payloadField p 0 8)
  | .stat4 => (payloadOf 3 8 bits).map fun p => .dgStat4 (payloadField p 0 8)
  | .drivingInfo => (payloadOf 3 8 bits).map fun p => .dgDrivingInfo (payloadField p 0 8)
  | .basicInfo => (payloadOf 4 8 bits).map fun p => .dgBasicInfo (payloadField p 0 8)
  | .stat1 => (payloadOf 4 8 bits).map fun p => .dgStat1 (payloadField p 0 8)
  | .time => (payloadOf 5 8 bits).map fun p => .dgTime (p.testBit 7) (payloadField p 0 7)
  | .error => (payloadOf 6 8 bits).map fun p => .dgError (payloadField p 0 8)
  | .dyn => (payloadOf 7 14 bits).map fun p => .dgDyn (payloadField p 6 8) (payloadField p 0 6)
  | .xpom0 => decodeXpom 0 .dgXpom0 bits
  | .stat2 => (payloadOf 8 8 bits).map fun p => .dgStat2 (payloadField p 0 8)
  | .xpom1 => decodeXpom 1 .dgXpom1 bits
  | .xpom2 => decodeXpom 2 .dgXpom2 bits
  | .xpom3 => decodeXpom 3 .dgXpom3 bits
  | .cvAuto => (payloadOf 12 32 bits).map fun p => .dgCvAuto (payloadField p 8 24) (payloadField p 0 8)
  | .block => (payloadOf 13 32 bits).map fun p => .dgBlock (payloadField p 0 32)
  | .decoderState => (payloadOf 13 44 bits).map fun p =>
      .dgDecoderState (payloadField p 36 8) (payloadField p 24 12) (payloadField p 8 16) (payloadField p 0 8)
  | .rerail => (payloadOf 14 8 bits).map fun p => .dgRerail (payloadField p 0 8)
  | .decoderUnique => (payloadOf 15 44 bits).map fun p => .dgDecoderUnique (payloadField p 32 12) (payloadField p 0 32)
  | .srq =>
    if bits.length = 12 then some (.dgSrq ((bitsVal bits).testBit 11) (payloadField (bitsVal bits) 0 11)) else none
  | .dataSpace => decodeDataSpace cfg bytes bits

/-- Bytes on the receive line that are no symbol row and no datagram: the plain read of them (rule R207). -/
def plainRead (bytes : List Byte) : Instr := .opRxRead 0 [{ now := 0, count := bytes.length, bytes := bytes }]

/-- Bytes on the line that their sender built as kind `k`; anything else is read as plain bytes (log entry 15). -/
def decodeDatagram (cfg : Config) (k : Kind) (bytes : List Byte) : Instr :=
  match dataSymbols cfg bytes with
  | none => plainRead bytes
  | some symbols => (decodeKind cfg k bytes (unpack symbols)).getD (plainRead bytes)

/-- One byte on the receive line (rule R100). -/
def decodeSymbol (cfg : Config) (b : Byte) : Instr :=
  match decode4of8 cfg b with
  | .data v => .symData v
  | .ack1 => .symAck1
  | .ack2 => .symAck2
  | .nack => .symNack
  | .invalid => plainRead [b]

/-- The host port (rule R120): operation codes, and arguments packed one after the other in the order the rule lists
them, each in whole bytes, most significant first, high bits beyond the width dropped (rule R381, log entry 6). -/
def decodeHost (code : Byte) (args : List Byte) (line : List RxSample) : Except Reject Instr :=
  match code.toNat with
  | 0x00 => .ok .opReset
  | 0x01 => .ok .opTxBegin
  | 0x02 => .ok .opTxEnd
  | 0x03 => .ok .opRxBegin
  | 0x04 => .ok .opRxEnd
  | 0x05 => .ok .opCvAutoTick
  | 0x06 => .ok .opSecondTick
  | 0x10 => .ok (.opSendPom (arg8 args 0))
  | 0x11 => .ok (.opSendAddress ((arg16 args 0).setWidth 14) (argBit args 2))
  | 0x12 => .ok (.opSendDynamic (arg8 args 0) ((arg8 args 1).setWidth 6))
  | 0x13 => .ok (.opSendXpom (arg8 args 0) (arg8 args 1) (arg8 args 2) (arg8 args 3) (arg8 args 4))
  | 0x14 => .ok (.opSendStatus1 (arg8 args 0))
  | 0x15 => .ok (.opSendStatus2 (arg8 args 0))
  | 0x16 => .ok (.opSendStatus4 (arg8 args 0))
  | 0x17 => .ok (.opSendTime (arg8 args 0) (argBit args 1))
  | 0x18 => .ok (.opSendError (arg8 args 0))
  | 0x19 => .ok (.opSendCvAuto (arg24 args 0) (arg8 args 3))
  | 0x1A => .ok (.opSendDecoderUnique ((arg16 args 0).setWidth 12) (arg32 args 2))
  | 0x1B => .ok (.opSendDecoderState (arg8 args 0) ((arg16 args 1).setWidth 12) (arg16 args 3))
  | 0x1C => .ok (.opSendRerail (arg16 args 0))
  | 0x1D => .ok (.opSendServiceRequest (arg16 args 0) (argBit args 2))
  | 0x1E => .ok (.opSendExt ((arg8 args 0).setWidth 6) (arg8 args 1))
  | 0x1F => .ok (.opSendDrivingInfo (arg8 args 0))
  | 0x20 => .ok (.opSendBasicInfo (arg8 args 0))
  | 0x21 => .ok (.opSendBlock (arg32 args 0))
  | 0x22 => .ok (.opSendDataSpace (arg8 args 0) (argBytes args 2 (arg8 args 1).toNat))
  | 0x40 => .ok (.opSetAddress ((arg16 args 0).setWidth 14) (argBit args 2))
  | 0x41 => .ok (.opSetIdentity ((arg16 args 0).setWidth 12) (arg32 args 2))
  | 0x42 => .ok (.opSetClass (classOfBit (argBit args 0)) (kindOfBit (argBit args 1)))
  | 0x43 => .ok (.opSetExtInfoEnabled (argBit args 0))
  | 0x44 => .ok (.opSetExtInfo (arg8 args 0))
  | 0x45 => .ok (.opSetExtPosition ((arg8 args 0).setWidth 6) (arg8 args 1))
  | 0x46 => .ok (.opSetDecoderStateFields (arg8 args 0) ((arg16 args 1).setWidth 12) (arg16 args 3))
  | 0x47 => .ok (.opCvSet (arg24 args 0) (arg8 args 3))
  | 0x48 => .ok .opCvClear
  | 0x49 => .ok (.opDsSet (arg8 args 0) (argBytes args 2 (arg8 args 1).toNat))
  | 0x4A => .ok .opDsClear
  | 0x4B => .ok .opLogonReset
  | 0x60 => .ok (.opRxSetContext ((arg8 args 0).setWidth 2))
  | 0x61 => .ok (.opRxExpectDataSpace (arg8 args 0))
  | 0x62 => .ok .opRxCacheTimeout
  | 0x63 => .ok (.opRxRead (arg32 args 0) line)
  | _ => .error (.unlistedOpCode code)

/-- The instruction a trigger presents, or why it presents none. -/
def decode (cfg : Config) (t : Trigger) : Except Reject Instr :=
  match t with
  | .resetInput => .ok .opReset
  | .cutout elapsedUs => .ok (.trigCutoutStart elapsedUs)
  | .dcc pkt => .ok (decodeDcc cfg pkt)
  | .host code args line => decodeHost code args line
  | .symbol b => .ok (decodeSymbol cfg b)
  | .datagram k bytes => .ok (decodeDatagram cfg k bytes)

/-- The bytes of a mobile packet after its address bytes (rules R114, R116 to R118). -/
def encodeBody (cfg : Config) : MobileBody → List Byte
  | .pomRead v x e => [0b111001#6 ++ v.extractLsb' 8 2, v.extractLsb' 0 8, x, e]
  | .pomWrite v d e => [0b111011#6 ++ v.extractLsb' 8 2, v.extractLsb' 0 8, d, e]
  | .pomWriteBit v x d b e => [0b111010#6 ++ v.extractLsb' 8 2, v.extractLsb' 0 8, x ++ BitVec.ofBool d ++ b, e]
  | .functionG1 d e => [0b100#3 ++ d, e]
  | .functionG2F5 d e => [0b1011#4 ++ d, e]
  | .functionG2F9 d e => [0b1010#4 ++ d, e]
  | .extFunction c e => [0xDE, c, e]
  | .dataSpaceRead n o e => [cfg.dsReadMarker, n, o, e]

/-- A mobile packet in the Broadcast form (rule R112). -/
def packetBroadcast (cfg : Config) (m : MobileBody) : Trigger := .dcc (0x00 :: encodeBody cfg m)

/-- A mobile packet in the Short form (rule R112). -/
def packetShort (cfg : Config) (a : BitVec 7) (m : MobileBody) : Trigger := .dcc ((0#1 ++ a) :: encodeBody cfg m)

/-- A mobile packet in the Long form (rule R112). -/
def packetLong (cfg : Config) (a : BitVec 14) (m : MobileBody) : Trigger :=
  .dcc ((0b11#2 ++ a.extractLsb' 8 6) :: a.extractLsb' 0 8 :: encodeBody cfg m)

/-- A host operation without a line (rule R120). -/
def hostOp (code : Byte) (args : List Byte) : Trigger := .host code args []

/-- The words of a well-formed instruction: the trigger that presents it, from the encoding tables of
30_encoding.md. -/
def encode (cfg : Config) (i : Instr) : Trigger :=
  match i with
  | .dccLogonEnable group cid session e =>
    .dcc [0xFE, 0b111111#6 ++ group, cid.extractLsb' 8 8, cid.extractLsb' 0 8, session, e]
  | .dccSelect mfg uid sub params e =>
    .dcc ([0xFE, 0b1101#4 ++ mfg.extractLsb' 8 4, mfg.extractLsb' 0 8] ++ bytes32 uid ++ [sub] ++ params ++ [e])
  | .dccLogonAssign mfg uid akind addr tail e =>
    .dcc ([0xFE, 0b1110#4 ++ mfg.extractLsb' 8 4, mfg.extractLsb' 0 8] ++ bytes32 uid ++
      [akind ++ addr.extractLsb' 8 6, addr.extractLsb' 0 8] ++ tail ++ [e])
  | .dccGetDataStart e => .dcc [0xFE, 0x00, e]
  | .dccGetDataCont e => .dcc [0xFE, 0x01, e]
  | .dccSetData data e => .dcc ([0xFE, 0x02] ++ data ++ [e])
  | .dccSetDataEnd data e => .dcc ([0xFE, 0x03] ++ data ++ [e])
  | .dccPomReadBroadcast v x e => packetBroadcast cfg (.pomRead v x e)
  | .dccPomReadShort a v x e => packetShort cfg a (.pomRead v x e)
  | .dccPomReadLong a v x e => packetLong cfg a (.pomRead v x e)
  | .dccPomWriteBroadcast v d e => packetBroadcast cfg (.pomWrite v d e)
  | .dccPomWriteShort a v d e => packetShort cfg a (.pomWrite v d e)
  | .dccPomWriteLong a v d e => packetLong cfg a (.pomWrite v d e)
  | .dccPomWriteBitBroadcast v x d b e => packetBroadcast cfg (.pomWriteBit v x d b e)
  | .dccPomWriteBitShort a v x d b e => packetShort cfg a (.pomWriteBit v x d b e)
  | .dccPomWriteBitLong a v x d b e => packetLong cfg a (.pomWriteBit v x d b e)
  | .dccFunctionG1Broadcast d e => packetBroadcast cfg (.functionG1 d e)
  | .dccFunctionG1Short a d e => packetShort cfg a (.functionG1 d e)
  | .dccFunctionG1Long a d e => packetLong cfg a (.functionG1 d e)
  | .dccFunctionG2F5Broadcast d e => packetBroadcast cfg (.functionG2F5 d e)
  | .dccFunctionG2F5Short a d e => packetShort cfg a (.functionG2F5 d e)
  | .dccFunctionG2F5Long a d e => packetLong cfg a (.functionG2F5 d e)
  | .dccFunctionG2F9Broadcast d e => packetBroadcast cfg (.functionG2F9 d e)
  | .dccFunctionG2F9Short a d e => packetShort cfg a (.functionG2F9 d e)
  | .dccFunctionG2F9Long a d e => packetLong cfg a (.functionG2F9 d e)
  | .dccExtFunctionBroadcast c e => packetBroadcast cfg (.extFunction c e)
  | .dccExtFunctionShort a c e => packetShort cfg a (.extFunction c e)
  | .dccExtFunctionLong a c e => packetLong cfg a (.extFunction c e)
  | .dccDataSpaceReadBroadcast n o e => packetBroadcast cfg (.dataSpaceRead n o e)
  | .dccDataSpaceReadShort a n o e => packetShort cfg a (.dataSpaceRead n o e)
  | .dccDataSpaceReadLong a n o e => packetLong cfg a (.dataSpaceRead n o e)
  | .dccAccessory a h c d e => .dcc [0b10#2 ++ a, 0b1#1 ++ h ++ BitVec.ofBool c ++ d, e]
  | .dgPom value => .datagram .pom (wirePom cfg value)
  | .dgAdrHigh raw => .datagram .adrHigh (wireAdrHigh cfg raw)
  | .dgAdrLow raw => .datagram .adrLow (wireAdrLow cfg raw)
  | .dgExt type position => .datagram .ext (wireExt cfg type position)
  | .dgStat4 status => .datagram .stat4 (wireStat4 cfg status)
  | .dgDrivingInfo info => .datagram .drivingInfo (wireDrivingInfo cfg info)
  | .dgBasicInfo info => .datagram .basicInfo (wireBasicInfo cfg info)
  | .dgStat1 status => .datagram .stat1 (wireStat1 cfg status)
  | .dgTime unit value => .datagram .time (wireTime cfg unit value)
  | .dgError code => .datagram .error (wireError cfg code)
  | .dgDyn value subindex => .datagram .dyn (wireDyn cfg value subindex)
  | .dgXpom0 d0 d1 d2 d3 => .datagram .xpom0 (wireXpom cfg 0 d0 d1 d2 d3)
  | .dgXpom1 d0 d1 d2 d3 => .datagram .xpom1 (wireXpom cfg 1 d0 d1 d2 d3)
  | .dgXpom2 d0 d1 d2 d3 => .datagram .xpom2 (wireXpom cfg 2 d0 d1 d2 d3)
  | .dgXpom3 d0 d1 d2 d3 => .datagram .xpom3 (wireXpom cfg 3 d0 d1 d2 d3)
  | .dgStat2 status => .datagram .stat2 (wireStat2 cfg status)
  | .dgCvAuto cv value => .datagram .cvAuto (wireCvAuto cfg cv value)
  | .dgBlock data => .datagram .block (wireBlock cfg data)
  | .dgDecoderState flags count caps crc => .datagram .decoderState (wireDecoderState cfg flags count caps crc)
  | .dgRerail seconds => .datagram .rerail (wireRerail cfg seconds)
  | .dgDecoderUnique mfg product => .datagram .decoderUnique (wireDecoderUnique cfg mfg product)
  | .dgSrq ext address => .datagram .srq (wireSrq cfg ext address)
  | .dgDataSpace data crc => .datagram .dataSpace (wireDataSpace cfg data crc)
  | .symAck1 => .symbol ack1
  | .symAck2 => .symbol ack2
  | .symNack => .symbol nack
  | .symData v => .symbol (encode4of8 cfg v.toNat)
  | .opReset => hostOp 0x00 []
  | .opTxBegin => hostOp 0x01 []
  | .opTxEnd => hostOp 0x02 []
  | .opRxBegin => hostOp 0x03 []
  | .opRxEnd => hostOp 0x04 []
  | .opCvAutoTick => hostOp 0x05 []
  | .opSecondTick => hostOp 0x06 []
  | .opSendPom value => hostOp 0x10 [value]
  | .opSendAddress address long => hostOp 0x11 (bytes16 (address.setWidth 16) ++ [byteBit long])
  | .opSendDynamic value subindex => hostOp 0x12 [value, subindex.setWidth 8]
  | .opSendXpom seq d0 d1 d2 d3 => hostOp 0x13 [seq, d0, d1, d2, d3]
  | .opSendStatus1 status => hostOp 0x14 [status]
  | .opSendStatus2 status => hostOp 0x15 [status]
  | .opSendStatus4 status => hostOp 0x16 [status]
  | .opSendTime value unit => hostOp 0x17 [value, byteBit unit]
  | .opSendError code => hostOp 0x18 [code]
  | .opSendCvAuto cv value => hostOp 0x19 (bytes24 cv ++ [value])
  | .opSendDecoderUnique mfg product => hostOp 0x1A (bytes16 (mfg.setWidth 16) ++ bytes32 product)
  | .opSendDecoderState flags count caps => hostOp 0x1B (flags :: bytes16 (count.setWidth 16) ++ bytes16 caps)
  | .opSendRerail seconds => hostOp 0x1C (bytes16 seconds)
  | .opSendServiceRequest address ext => hostOp 0x1D (bytes16 address ++ [byteBit ext])
  | .opSendExt type position => hostOp 0x1E [type.setWidth 8, position]
  | .opSendDrivingInfo info => hostOp 0x1F [info]
  | .opSendBasicInfo info => hostOp 0x20 [info]
  | .opSendBlock data => hostOp 0x21 (bytes32 data)
  | .opSendDataSpace num data => hostOp 0x22 (num :: BitVec.ofNat 8 data.length :: data)
  | .opSetAddress address long => hostOp 0x40 (bytes16 (address.setWidth 16) ++ [byteBit long])
  | .opSetIdentity mfg product => hostOp 0x41 (bytes16 (mfg.setWidth 16) ++ bytes32 product)
  | .opSetClass cls kind => hostOp 0x42 [byteBit (bitOfClass cls), byteBit (bitOfKind kind)]
  | .opSetExtInfoEnabled en => hostOp 0x43 [byteBit en]
  | .opSetExtInfo info => hostOp 0x44 [info]
  | .opSetExtPosition type position => hostOp 0x45 [type.setWidth 8, position]
  | .opSetDecoderStateFields flags count caps => hostOp 0x46 (flags :: bytes16 (count.setWidth 16) ++ bytes16 caps)
  | .opCvSet key value => hostOp 0x47 (bytes24 key ++ [value])
  | .opCvClear => hostOp 0x48 []
  | .opDsSet num bytes => hostOp 0x49 (num :: BitVec.ofNat 8 bytes.length :: bytes)
  | .opDsClear => hostOp 0x4A []
  | .opLogonReset => hostOp 0x4B []
  | .opRxSetContext ctx => hostOp 0x60 [ctx.setWidth 8]
  | .opRxExpectDataSpace num => hostOp 0x61 [num]
  | .opRxCacheTimeout => hostOp 0x62 []
  | .opRxRead timeoutUs line => .host 0x63 (bytes32 timeoutUs) line
  | .trigDccPacket pkt => .dcc pkt
  | .trigCutoutStart elapsedUs => .cutout elapsedUs

/-- The low `8 * n` bits of `w` as `n` bytes, the most significant first: the order in which
spec/opcode_table.json numbers the bits of a `DCC.` row (log entry 16). -/
def tableBytes (w : Nat) : Nat → List Byte
  | 0 => []
  | n + 1 => BitVec.ofNat 8 (w >>> (8 * n)) :: tableBytes w n

/-- The kind whose ID and total length are those of `total` datagram bits `w` (rule R104); of two kinds that share
both, the one of channel 2 (log entry 16). -/
def tableKind (total w : Nat) : Option Kind :=
  match total, w >>> (total - 4) with
  | 12, 0 => some .pom
  | 12, 1 => some .adrHigh
  | 12, 2 => some .adrLow
  | 12, 3 => some .stat4
  | 12, 4 => some .stat1
  | 12, 5 => some .time
  | 12, 6 => some .error
  | 12, 8 => some .stat2
  | 12, 14 => some .rerail
  | 18, 3 => some .ext
  | 18, 7 => some .dyn
  | 36, 8 => some .xpom0
  | 36, 9 => some .xpom1
  | 36, 10 => some .xpom2
  | 36, 11 => some .xpom3
  | 36, 12 => some .cvAuto
  | 36, 13 => some .block
  | 48, 13 => some .decoderState
  | 48, 15 => some .decoderUnique
  | _, _ => none

/-- The total bits of a `DG.` row that the table gives `nbits` bits in whole bytes. -/
def tableTotal (nbits : Nat) : Nat :=
  match nbits with
  | 16 => 12
  | 24 => 18
  | 40 => 36
  | _ => nbits

/-- The trigger that presents the word `w` of a row of `nbits` bits, each row's bits numbered as
spec/opcode_table.json numbers them (log entry 16): one byte is a host operation code with zero arguments, else a
symbol; more bytes are a DCC packet, else the symbols of a datagram. -/
def tableTrigger (nbits w : Nat) : Option Trigger :=
  if nbits = 8 then
    match decodeHost (BitVec.ofNat 8 w) [] [] with
    | .ok _ => some (.host (BitVec.ofNat 8 w) [] [])
    | .error _ => some (.symbol (BitVec.ofNat 8 w))
  else
    let pkt := tableBytes w (nbits / 8)
    if (packetRow Config.default pkt).isSome then some (.dcc pkt)
    else
      match tableKind (tableTotal nbits) w with
      | some k => some (.datagram k (encodeRaw Config.default (bitsOf (tableTotal nbits) w)))
      | none => none

/-- The instruction the decoder reads from the word `w` of a table row of `nbits` bits. -/
def decodeTableWord (nbits w : Nat) : Option Instr :=
  match tableTrigger nbits w with
  | none => none
  | some t =>
    match decode Config.default t with
    | .ok i => some i
    | .error _ => none

end Sys2Proof
end

