-- ==== Sys2Proof/Machine/Arbiter.lean ====
section
/-! DEFINITION. Which waiting trigger the engine takes next (rule R425), and how one is placed at the ports. -/

namespace Sys2Proof.Machine

/-- The classes of rule R425, in the order they are taken: `reset` (the input, or host operation 0x00, rule R420),
`cutout_start`, `dcc_packet`, everything else. That host operation 0x00 stands with `reset` is DEDUCED (log entry 3);
that a symbol and a datagram stand with the host operations is DESIGN CHOICE (log entry 23). -/
def triggerClass (t : Trigger) : Nat :=
  match t with
  | .resetInput => 0
  | .cutout _ => 1
  | .dcc _ => 2
  | .host code _ _ => if code = 0x00 then 0 else 3
  | .symbol _ => 3
  | .datagram _ _ => 3

/-- The first trigger of class `c`, and the others in the order presented. Rule R425 gives that order for the host
operations. DESIGN CHOICE (log entry 23): of several waiting triggers of another kind (two resets, two cutouts, two
packets), whose order the spec leaves open, the one presented earliest is taken. -/
def takeClass (c : Nat) : List Trigger → Option (Trigger × List Trigger)
  | [] => none
  | t :: rest =>
    if triggerClass t = c then some (t, rest)
    else
      match takeClass c rest with
      | some (u, others) => some (u, t :: others)
      | none => none

/-- The trigger taken next and those that keep waiting (rule R425; log entry 23 for equals). -/
def takeTrigger (port : List Trigger) : Option (Trigger × List Trigger) :=
  (takeClass 0 port).or ((takeClass 1 port).or ((takeClass 2 port).or (takeClass 3 port)))

/-- The state with one trigger waiting and no other. -/
def presentOnly (t : Trigger) (s : State) : State := { s with port := [t] }

/-- The host presents one more trigger (rules R420, R425). -/
def present (t : Trigger) (s : State) : State := { s with port := s.port ++ [t] }

/-- A trigger the engine ignores (rule R381): no state change, no output. -/
def ignored (s : State) : Host.Outcome State Fault Refusal := .next { s with out := {} }

end Sys2Proof.Machine
end

