-- ==== Sys2Proof/Machine/Parser.lean ====
section
/-! DEFINITION. The DCC Command Parser (43_dcc_parser.md): a pure function of the packet, its tests in the order of
rules R280 and R284. -/

namespace Sys2Proof.Machine

/-- Byte `PKT[i]` (rule R71). Every rule reads it only for `i < len`. -/
def pktByte (pkt : List Byte) (i : Nat) : Byte := pkt.getD i 0

/-- `PKT[lo .. len-2]`: the bytes between a fixed head and the check byte (rules R286, R289). -/
def pktTail (pkt : List Byte) (lo : Nat) : List Byte := (pkt.take (pkt.length - 1)).drop lo

/-- `classify_dcca` (rules R284 to R289). -/
def classifyDcca (pkt : List Byte) : Cmd :=
  let c := pktByte pkt 1
  let mfg : BitVec 12 := c.extractLsb' 0 4 ++ pktByte pkt 2
  let uid : Word32 := pktByte pkt 3 ++ pktByte pkt 4 ++ pktByte pkt 5 ++ pktByte pkt 6
  if c.extractLsb' 2 6 = 0b111111#6 ∧ pkt.length = 6 then
    .logonEnable (c.extractLsb' 0 2) (pktByte pkt 2 ++ pktByte pkt 3) (pktByte pkt 4)
  else if c.extractLsb' 4 4 = 0b1101#4 ∧ 9 ≤ pkt.length ∧ pkt.length ≤ dccPktMax then
    .select mfg uid (pktByte pkt 7) (pktTail pkt 8)
  else if c.extractLsb' 4 4 = 0b1110#4 ∧ 10 ≤ pkt.length ∧ pkt.length ≤ dccPktMax then
    .logonAssign mfg uid ((pktByte pkt 7).extractLsb' 6 2) ((pktByte pkt 7).extractLsb' 0 6 ++ pktByte pkt 8)
  else if c = 0x00 ∧ pkt.length = 3 then .getDataStart
  else if c = 0x01 ∧ pkt.length = 3 then .getDataCont
  else if c = 0x02 then .setData (pktTail pkt 2)
  else if c = 0x03 then .setDataEnd (pktTail pkt 2)
  else .none

/-- `classify_accessory` (rule R293). -/
def classifyAccessory (pkt : List Byte) : Cmd :=
  let b1 := pktByte pkt 1
  if pkt.length = 3 ∧ b1.getLsbD 7 = true then
    .accessory (accessoryAddress ((pktByte pkt 0).extractLsb' 0 6) (b1.extractLsb' 4 3)) (b1.getLsbD 3) (b1.extractLsb' 0 3)
  else .none

/-- The mobile forms (rules R290 to R296): `a` address bytes, then the instruction byte. -/
def classifyMobile (cfg : Config) (form : AddrForm) (a : Nat) (addr : BitVec 14) (pkt : List Byte) : Cmd :=
  let i := pktByte pkt a
  let cv := cvNumber (i.extractLsb' 0 2 ++ pktByte pkt (a + 1))
  let b2 := pktByte pkt (a + 2)
  if pkt.length = a + 4 ∧ i.extractLsb' 2 6 = 0b111001#6 then .pomRead form addr cv
  else if pkt.length = a + 4 ∧ i.extractLsb' 2 6 = 0b111011#6 then .pomWrite form addr cv b2
  else if pkt.length = a + 4 ∧ i.extractLsb' 2 6 = 0b111010#6 then
    .pomWriteBit form addr cv (b2.extractLsb' 0 3) (b2.getLsbD 3)
  else if pkt.length = a + 2 ∧ i.extractLsb' 5 3 = 0b100#3 then
    .function form addr 0 (functionG1State (i.extractLsb' 0 5))
  else if pkt.length = a + 2 ∧ i.extractLsb' 4 4 = 0b1011#4 then
    .function form addr 5 (functionG2State (i.extractLsb' 0 4))
  else if pkt.length = a + 2 ∧ i.extractLsb' 4 4 = 0b1010#4 then
    .function form addr 9 (functionG2State (i.extractLsb' 0 4))
  else if pkt.length = a + 3 ∧ i = 0xDE#8 then .extFunction form addr (pktByte pkt (a + 1))
  else if pkt.length = a + 4 ∧ i = cfg.dsReadMarker then .dataSpaceRead form addr (pktByte pkt (a + 1)) b2
  else .none

/-- `classify(PKT, len)` (rule R280) with `len` the length of `pkt`. -/
def classify (cfg : Config) (pkt : List Byte) : Cmd :=
  let b0 := pktByte pkt 0
  if pkt.length < 3 ∨ dccPktMax < pkt.length then .none
  else if b0 = dccaAddr then classifyDcca pkt
  else if 0x80 ≤ b0.toNat ∧ b0.toNat ≤ 0xBF then classifyAccessory pkt
  else if b0 = 0x00 then classifyMobile cfg .broadcast 1 0 pkt
  else if 0x01 ≤ b0.toNat ∧ b0.toNat ≤ 0x7F then classifyMobile cfg .short 1 (shortAddress (b0.extractLsb' 0 7)) pkt
  else if 0xC0 ≤ b0.toNat ∧ b0.toNat ≤ 0xE7 then
    classifyMobile cfg .long 2 (b0.extractLsb' 0 6 ++ pktByte pkt 1) pkt
  else .none

end Sys2Proof.Machine
end

