-- ==== Sys2Proof/Machine/Flags.lean ====
section
/-! DEFINITION. The one-bit conditions of the engine: `own` (rule R322), `default_applies` (rule R324), `crc_valid`
(rules R196, R203), the queue-full tests (rule R222) and the end of a wait (rule R436). -/

namespace Sys2Proof.Machine

/-- `own(cmd)`: the command is directly addressed to this decoder (rule R322). -/
def ownForm (form : AddrForm) (a : BitVec 14) (d : Decoder) : Bool :=
  match form with
  | .broadcast => false
  | .short => d.decoderClass == .mobile && !d.addrLong && a == (d.address.extractLsb' 0 7).setWidth 14
  | .long => d.decoderClass == .mobile && d.addrLong && a == d.address

/-- `own(cmd)` by variant (rule R322); the logon commands carry no decoder address. -/
def own (cmd : Cmd) (d : Decoder) : Bool :=
  match cmd with
  | .none => false
  | .logonEnable _ _ _ => false
  | .select _ _ _ _ => false
  | .logonAssign _ _ _ _ => false
  | .getDataStart => false
  | .getDataCont => false
  | .setData _ => false
  | .setDataEnd _ => false
  | .pomRead form a _ => ownForm form a d
  | .pomWrite form a _ _ => ownForm form a d
  | .pomWriteBit form a _ _ _ => ownForm form a d
  | .accessory a _ _ => d.decoderClass == .stationary && a == d.address.extractLsb' 0 9
  | .function form a _ _ => ownForm form a d
  | .extFunction form a _ => ownForm form a d
  | .dataSpaceRead form a _ _ => ownForm form a d

/-- One of the seven reserved-broadcast-address (logon) variants (rules R281, R324). -/
def isLogon (cmd : Cmd) : Bool :=
  match cmd with
  | .logonEnable _ _ _ => true
  | .select _ _ _ _ => true
  | .logonAssign _ _ _ _ => true
  | .getDataStart => true
  | .getDataCont => true
  | .setData _ => true
  | .setDataEnd _ => true
  | .none => false
  | .pomRead _ _ _ => false
  | .pomWrite _ _ _ _ => false
  | .pomWriteBit _ _ _ _ _ => false
  | .accessory _ _ _ => false
  | .function _ _ _ _ => false
  | .extFunction _ _ _ => false
  | .dataSpaceRead _ _ _ _ => false

/-- `default_applies(cmd)` (rule R324). -/
def defaultApplies (cmd : Cmd) (d : Decoder) : Bool :=
  d.decoderClass == .mobile && d.ch1BroadcastEnabled && !isLogon cmd

/-- `crc_valid` of a DECODER_STATE message (rule R196): over the first 40 accumulated bits, start value 0. -/
def decoderStateCrcValid (frame : List Bool) (crc : Byte) : Bool :=
  crc8 (octets (frame.take 40)) 0 == crc

/-- `crc_valid` of a data-space message (rule R203): over the received length byte and data, seeded with the number. -/
def dataSpaceCrcValid (num lenByte : Byte) (data : List Byte) (crc : Byte) : Bool :=
  crc8 (lenByte :: data) num == crc

/-- Queue `ch1_q` is at its depth (rule R222). -/
def ch1Full (cfg : Config) (d : Decoder) : Bool := decide (cfg.ch1Depth ≤ d.ch1Q.length)

/-- Queue `ch2_q` is at its depth (rule R222). -/
def ch2Full (cfg : Config) (d : Decoder) : Bool := decide (cfg.ch2Depth ≤ d.ch2Q.length)

/-- A wait of `bound` microseconds begun at `start` is over at the sample `now` (rule R436): the difference is taken
modulo 2^32, so a wait works across a wrap. -/
def waitOver (start now bound : Word32) : Bool := decide (bound ≤ now - start)

end Sys2Proof.Machine
end

