-- ==== Sys2Proof/Machine/Ops.lean ====
section
/-! DEFINITION. The named operations over the stores (20_memory.md): channel queues, CV map, data-space store, and
how an operation's effect on one half becomes a step of the engine. The engine takes no exception and returns from
none (rules R410, R413), so there is no operation for either. -/

namespace Sys2Proof.Machine

/-- `enqueue(ch, bytes)` (rule R222): append at the tail if the queue is below its depth, else change nothing. -/
def enqueue (cfg : Config) (ch : Channel) (e : Entry) (d : Decoder) : Decoder :=
  match ch with
  | .one => if ch1Full cfg d then d else { d with ch1Q := d.ch1Q ++ [e] }
  | .two => if ch2Full cfg d then d else { d with ch2Q := d.ch2Q ++ [e] }

/-- `enqueue_split(e)` (rule R224): bytes 0 and 1 to channel 1 and the rest to channel 2, or neither. -/
def enqueueSplit (cfg : Config) (e : Entry) (d : Decoder) : Decoder :=
  if ch1Full cfg d || ch2Full cfg d then d
  else enqueue cfg .two (e.drop 2) (enqueue cfg .one (e.take 2) d)

/-- `CvLookup(key)` (rule R72). -/
def cvLookup (key : BitVec 24) : CvMap → Option Byte
  | [] => none
  | (k, v) :: rest => if k = key then some v else cvLookup key rest

/-- `CvAt(i)` (rule R73); nothing where `i` is out of range. -/
def cvAt (m : CvMap) (i : Nat) : Option (BitVec 24 × Byte) := m[i]?

/-- The value of an existing key replaced, its position kept (rule R385). -/
def cvReplace (key : BitVec 24) (value : Byte) : CvMap → CvMap
  | [] => []
  | (k, v) :: rest => if k = key then (k, value) :: rest else (k, v) :: cvReplace key value rest

/-- `cv_set` on the map (rule R385). -/
def cvSet (cfg : Config) (key : BitVec 24) (value : Byte) (m : CvMap) : CvMap :=
  if m.any fun p => p.1 == key then cvReplace key value m
  else if m.length < cfg.cvCapacity then m ++ [(key, value)]
  else m

/-- The record of a data space, if the store has one (rule R74). -/
def dsFind (num : Byte) : List DsRecord → Option (List Byte)
  | [] => none
  | r :: rest => if r.num = num then some r.bytes else dsFind num rest

/-- `DsSlice(num, off)` (rule R74): at most 16 bytes from the offset on; nothing at or beyond the length. -/
def dsSlice (num : Byte) (off : Nat) (store : List DsRecord) : Option (List Byte) :=
  match dsFind num store with
  | none => none
  | some bytes => if bytes.length ≤ off then none else some ((bytes.drop off).take dsMaxPayload)

/-- The record of an existing number replaced (rule R387). -/
def dsReplace (num : Byte) (bytes : List Byte) : List DsRecord → List DsRecord
  | [] => []
  | r :: rest => if r.num = num then { num := num, bytes := bytes } :: rest else r :: dsReplace num bytes rest

/-- `ds_set` on the store (rule R387). -/
def dsSet (cfg : Config) (num : Byte) (bytes : List Byte) (store : List DsRecord) : List DsRecord :=
  if cfg.dsMaxLen < bytes.length then store
  else if store.any fun r => r.num == num then dsReplace num bytes store
  else if store.length < cfg.dsCapacity then store ++ [{ num := num, bytes := bytes }]
  else store

/-- A count plus `n`, saturating at 0xFFFFFFFF (rules R31, R37, R170). -/
def satAdd (w : Word32) (n : Nat) : Word32 := BitVec.ofNat 32 (min (w.toNat + n) 0xFFFFFFFF)

/-- An operation on the decoder half with no output (rules R220, R380). -/
def onDecoder (f : Config → Decoder → Decoder) (s : State) : Host.Outcome State Fault Refusal :=
  .next { s with dec := f s.cfg s.dec, out := {} }

/-- An operation on the receiver half with no output (rule R380). -/
def onReceiver (f : Receiver → Receiver) (s : State) : Host.Outcome State Fault Refusal :=
  .next { s with rcv := f s.rcv, out := {} }

/-- An operation that makes transport calls and changes no register (rules R395 to R398). -/
def callsOnly (calls : List Call) (s : State) : Host.Outcome State Fault Refusal :=
  .next { s with out := { calls := calls } }

end Sys2Proof.Machine
end

