-- ==== Sys2Proof/Machine/Tx.lean ====
section
/-! DEFINITION. The TX Engine (42_tx_engine.md): the send operations on the decoder half, callable by the host and by
the Decoder State Machine alike, and the cutout flush. -/

namespace Sys2Proof.Machine

/-- `(rot_index + 1) mod (if ext_info_enabled then 3 else 2)` (rule R226). -/
def rotNext (extEnabled : Bool) (r : Fin 3) : Fin 3 :=
  if extEnabled then Fin.ofNat 3 ((r.val + 1) % 3) else Fin.ofNat 3 ((r.val + 1) % 2)

/-- The payload of ADR_HIGH (rules R105, R226): long `0b10 ‖ address[13:8]`, short `0x00`. -/
def adrHighPayload (address : BitVec 14) (long : Bool) : Byte :=
  if long then 0b10#2 ++ address.extractLsb' 8 6 else 0

/-- The payload of ADR_LOW (rules R105, R226): long `address[7:0]`, short `0b0 ‖ address[6:0]`. -/
def adrLowPayload (address : BitVec 14) (long : Bool) : Byte :=
  if long then address.extractLsb' 0 8 else 0#1 ++ address.extractLsb' 0 7

/-- The datagram of the current rotation step (rule R226). -/
def rotationBytes (cfg : Config) (address : BitVec 14) (long : Bool) (d : Decoder) : List Byte :=
  match d.rotIndex with
  | 0 => wireAdrHigh cfg (adrHighPayload address long)
  | 1 => wireAdrLow cfg (adrLowPayload address long)
  | 2 => wireBasicInfo cfg d.extInfo

/-- `sendAddress` (rule R226): the rotation advances whether or not the entry was accepted. -/
def sendAddress (cfg : Config) (address : BitVec 14) (long : Bool) (d : Decoder) : Decoder :=
  { enqueue cfg .one (rotationBytes cfg address long d) d with rotIndex := rotNext d.extInfoEnabled d.rotIndex }

/-- `sendPom` (rule R230). -/
def sendPom (cfg : Config) (value : Byte) (d : Decoder) : Decoder := enqueue cfg .two (wirePom cfg value) d

/-- `sendDynamic` (rule R231). -/
def sendDynamic (cfg : Config) (value : Byte) (subindex : BitVec 6) (d : Decoder) : Decoder :=
  enqueue cfg .two (wireDyn cfg value subindex) d

/-- `sendXpom` (rule R232): a no-op for `seq > 3`. -/
def sendXpom (cfg : Config) (seq d0 d1 d2 d3 : Byte) (d : Decoder) : Decoder :=
  if xpomSeqMax < seq.toNat then d else enqueue cfg .two (wireXpom cfg (seq.setWidth 2) d0 d1 d2 d3) d

/-- `sendStatus1` (rule R233). -/
def sendStatus1 (cfg : Config) (status : Byte) (d : Decoder) : Decoder := enqueue cfg .two (wireStat1 cfg status) d

/-- `sendStatus2` (rule R234). -/
def sendStatus2 (cfg : Config) (status : Byte) (d : Decoder) : Decoder := enqueue cfg .two (wireStat2 cfg status) d

/-- `sendStatus4` (rule R235). -/
def sendStatus4 (cfg : Config) (status : Byte) (d : Decoder) : Decoder := enqueue cfg .two (wireStat4 cfg status) d

/-- `sendTime` (rule R236): a no-op for `value > 127`. -/
def sendTime (cfg : Config) (value : Byte) (unit : Bool) (d : Decoder) : Decoder :=
  if timeMax < value.toNat then d else enqueue cfg .two (wireTime cfg unit (value.setWidth 7)) d

/-- `sendError` (rule R237). -/
def sendError (cfg : Config) (code : Byte) (d : Decoder) : Decoder := enqueue cfg .two (wireError cfg code) d

/-- `sendCvAuto` (rule R238). -/
def sendCvAuto (cfg : Config) (cv : BitVec 24) (value : Byte) (d : Decoder) : Decoder :=
  enqueue cfg .two (wireCvAuto cfg cv value) d

/-- `sendDecoderUnique` (rule R239). -/
def sendDecoderUnique (cfg : Config) (mfg : BitVec 12) (product : Word32) (d : Decoder) : Decoder :=
  enqueueSplit cfg (wireDecoderUnique cfg mfg product) d

/-- `sendDecoderState` (rule R240). -/
def sendDecoderState (cfg : Config) (flags : Byte) (count : BitVec 12) (caps : BitVec 16) (d : Decoder) : Decoder :=
  enqueueSplit cfg (wireDecoderState cfg flags count caps (decoderStateCrc flags count caps)) d

/-- `sendRerail` (rule R241): a no-op for `seconds > 255`. -/
def sendRerail (cfg : Config) (seconds : BitVec 16) (d : Decoder) : Decoder :=
  if rerailMax < seconds.toNat then d else enqueue cfg .two (wireRerail cfg (seconds.setWidth 8)) d

/-- `sendServiceRequest` (rule R242): a no-op for `address > 2047`. -/
def sendServiceRequest (cfg : Config) (address : BitVec 16) (ext : Bool) (d : Decoder) : Decoder :=
  if accAddrMax < address.toNat then d else enqueue cfg .one (wireSrq cfg ext (address.setWidth 11)) d

/-- `sendExt` (rule R243). -/
def sendExt (cfg : Config) (type : BitVec 6) (position : Byte) (d : Decoder) : Decoder :=
  enqueue cfg .two (wireExt cfg type position) d

/-- `sendDrivingInfo` (rule R244). -/
def sendDrivingInfo (cfg : Config) (info : Byte) (d : Decoder) : Decoder :=
  enqueue cfg .one (wireDrivingInfo cfg info) d

/-- `sendBasicInfo` (rule R245). -/
def sendBasicInfo (cfg : Config) (info : Byte) (d : Decoder) : Decoder := enqueue cfg .one (wireBasicInfo cfg info) d

/-- `sendBlock` (rule R246). -/
def sendBlock (cfg : Config) (data : Word32) (d : Decoder) : Decoder := enqueue cfg .two (wireBlock cfg data) d

/-- `sendDataSpace` (rule R247): a no-op for more than 16 bytes. -/
def sendDataSpace (cfg : Config) (num : Byte) (data : List Byte) (d : Decoder) : Decoder :=
  if dsMaxPayload < data.length then d else enqueueSplit cfg (encodeDataSpace cfg num data) d

/-- The remaining inter-channel delay (rule R261): the subtraction is made only when it does not wrap. -/
def channelWait (elapsedUs : Word32) : Nat :=
  if elapsedUs.toNat < tCh2MinUs then tCh2MinUs - elapsedUs.toNat else 0

/-- The transport calls of a flush, in order (rules R260, R262). -/
def flushCalls (elapsedUs : Word32) (d : Decoder) : List Call :=
  if d.ch1Q = [] ∧ d.ch2Q = [] then []
  else
    [.setBaudrate .tx baudRailcom] ++ (d.ch1Q.take 1).map (.write .tx) ++
      (if d.ch2Q = [] then [] else .waitUntil (channelWait elapsedUs) :: d.ch2Q.map (.write .tx)) ++
      [.waitForTransmitComplete .tx, .setBaudrate .tx baudIdle]

/-- What a flush leaves queued (rule R260): all but the head of channel 1. -/
def flush (d : Decoder) : Decoder :=
  { d with ch1Q := d.ch1Q.drop 1, ch2Q := [] }

end Sys2Proof.Machine
end

