-- ==== Sys2Proof/Machine/Fsm.lean ====
section
/-! DEFINITION. The Decoder State Machine (44_decoder_fsm.md): the handlers of the commands, each with its
`triggered` result, the `dcc_packet` operation and the CV-Auto tick. -/

namespace Sys2Proof.Machine

/-- `singulate()` (rule R331): test first, then decrement. -/
def singulate (cfg : Config) (d : Decoder) : Decoder × Bool :=
  if d.backoffCounter = 0 then
    ({ sendDecoderUnique cfg d.mfgId d.productId d with
        backoffCounter := d.backoffValue
        backoffValue := satAdd d.backoffValue cfg.backoffStep
        logonState := .inSingulation }, true)
  else ({ d with backoffCounter := d.backoffCounter - 1 }, false)

/-- LogonEnable (rule R330): an IDLE decoder passes through WAITING_FOR_LOGON within the step. -/
def handleLogonEnable (cfg : Config) (d : Decoder) : Decoder × Bool :=
  match d.logonState with
  | .idle => singulate cfg { d with logonState := .waitingForLogon }
  | .waitingForLogon => singulate cfg d
  | .inSingulation => singulate cfg d
  | .announced => (d, false)
  | .registered => (d, false)

/-- A logon command names this decoder by manufacturer and unique ID (rules R333, R334). -/
def identityMatches (mfg : BitVec 12) (uid : Word32) (d : Decoder) : Bool := mfg == d.mfgId && uid == d.productId

/-- Select (rule R333). -/
def handleSelect (mfg : BitVec 12) (uid : Word32) (d : Decoder) : Decoder × Bool :=
  if identityMatches mfg uid d && decide (logonCode d.logonState < logonCode .announced) then
    ({ d with logonState := .announced }, false)
  else (d, false)

/-- LogonAssign (rule R334). -/
def handleLogonAssign (cfg : Config) (mfg : BitVec 12) (uid : Word32) (a : BitVec 14) (d : Decoder) : Decoder × Bool :=
  if identityMatches mfg uid d then
    (sendDecoderState cfg d.dsFlags d.dsCount d.dsCaps
      { d with address := a, addrLong := decide (127 < a.toNat), logonState := .registered }, true)
  else (d, false)

/-- PomRead, for a command that is `own` (rule R335). -/
def handlePomRead (cfg : Config) (cv : BitVec 11) (d : Decoder) : Decoder × Bool :=
  match cvLookup (cv.setWidth 24) d.cv with
  | some v => (sendPom cfg v d, true)
  | none => (d, false)

/-- `accessory_mask[output] <- activate` (rule R337). -/
def setOutput (mask : Byte) (output : BitVec 3) (activate : Bool) : Byte :=
  if activate then mask ||| (1#8 <<< output.toNat) else mask &&& ~~~(1#8 <<< output.toNat)

/-- Accessory, for a command that is `own` (rule R337). -/
def handleAccessory (cfg : Config) (activate : Bool) (output : BitVec 3) (d : Decoder) : Decoder × Bool :=
  let d1 := { d with accessoryMask := setOutput d.accessoryMask output activate }
  match d1.statusKind with
  | .stat1 => (sendStatus1 cfg d1.accessoryMask d1, true)
  | .stat4 => (sendStatus4 cfg d1.accessoryMask d1, true)

/-- The rerailing search (rule R343): the uptime is capped before the call. -/
def handleRerail (cfg : Config) (d : Decoder) : Decoder × Bool :=
  (sendRerail cfg (BitVec.ofNat 16 (min d.uptimeS.toNat rerailMax)) (sendAddress cfg d.address d.addrLong d), true)

/-- The CV-Auto toggle (rule R342). -/
def toggleCvAuto (d : Decoder) : Decoder :=
  { d with cvAutoActive := !d.cvAutoActive, cvCursor := if d.cvAutoActive then d.cvCursor else 0 }

/-- ExtFunction (rules R341 to R344). -/
def handleExtFunction (cfg : Config) (form : AddrForm) (a : BitVec 14) (command : Byte) (d : Decoder) : Decoder × Bool :=
  if form = .broadcast ∧ command = 2 then handleRerail cfg d
  else if ownForm form a d && command == 1 then (sendExt cfg d.extType d.extPosition d, true)
  else if ownForm form a d && command == 3 then (toggleCvAuto d, false)
  else (d, false)

/-- DataSpaceRead, for a command that is `own` (rule R347). -/
def handleDataSpaceRead (cfg : Config) (num off : Byte) (d : Decoder) : Decoder × Bool :=
  match dsSlice num off.toNat d.ds with
  | some chunk => (sendDataSpace cfg num chunk d, true)
  | none => (d, false)

/-- `handle(cmd)` (rule R323): the new decoder half and `triggered`. -/
def handle (cfg : Config) (cmd : Cmd) (d : Decoder) : Decoder × Bool :=
  match cmd with
  | .none => (d, false)
  | .logonEnable _ _ _ => handleLogonEnable cfg d
  | .select mfg uid _ _ => handleSelect mfg uid d
  | .logonAssign mfg uid _ a => handleLogonAssign cfg mfg uid a d
  | .getDataStart => (d, false)
  | .getDataCont => (d, false)
  | .setData _ => (d, false)
  | .setDataEnd _ => (d, false)
  | .pomRead form a cv => if ownForm form a d then handlePomRead cfg cv d else (d, false)
  | .pomWrite _ _ _ _ => (d, false)
  | .pomWriteBit _ _ _ _ _ => (d, false)
  | .accessory a act out => if own (.accessory a act out) d then handleAccessory cfg act out d else (d, false)
  | .function _ _ _ _ => (d, false)
  | .extFunction form a command => handleExtFunction cfg form a command d
  | .dataSpaceRead form a num off => if ownForm form a d then handleDataSpaceRead cfg num off d else (d, false)

/-- The latch cleared if the command is directly addressed (rules R320, R322). -/
def clearLatch (cmd : Cmd) (d : Decoder) : Decoder :=
  if own cmd d then { d with ch1BroadcastEnabled := false } else d

/-- `dcc_packet` after classification, for a recognised command (rule R320): clear the latch, handle, and issue the
default broadcast if nothing was triggered (rule R324). -/
def handleRecognised (cfg : Config) (cmd : Cmd) (d : Decoder) : Decoder × Bool :=
  let r := handle cfg cmd (clearLatch cmd d)
  if !r.2 && defaultApplies cmd r.1 then (sendAddress cfg r.1.address r.1.addrLong r.1, r.2) else r

/-- `dcc_packet` after classification (rule R320): `None` changes nothing. -/
def dccPacket (cfg : Config) (cmd : Cmd) (d : Decoder) : Decoder × Bool :=
  if cmd = .none then (d, false) else handleRecognised cfg cmd d

/-- The `dcc_packet` operation on a classified command, with its two outputs (rules R320, R321, R38). -/
def runCmd (cmd : Cmd) (s : State) : Host.Outcome State Fault Refusal :=
  .next { s with
    dec := (dccPacket s.cfg cmd s.dec).1
    out := { cmdOut := some cmd, responseTriggered := some (dccPacket s.cfg cmd s.dec).2 } }

/-- `cv_auto_tick` (rule R345). -/
def cvAutoTick (cfg : Config) (d : Decoder) : Decoder :=
  if d.cvAutoActive then
    match cvAt d.cv d.cvCursor with
    | some (k, v) => { sendCvAuto cfg k v d with cvCursor := (d.cvCursor + 1) % d.cv.length }
    | none => d
  else d

end Sys2Proof.Machine
end

