-- ==== Sys2Proof/Machine/Rx.lean ====
section
/-! DEFINITION. The RX Engine (41_rx_engine.md): the byte step, length and kind resolution, message construction, the
data-space mode and the read operation. -/

namespace Sys2Proof.Machine

/-- `expected_bits(id, ctx)` (rule R183); 0 is an unknown ID. -/
def expectedBits (id : BitVec 4) (ctx : RxContext) : Nat :=
  match id.toNat, ctx with
  | 3, .mobile => 14
  | 5, .mobile => 0
  | 6, .mobile => 0
  | 7, _ => 14
  | 8, _ => 32
  | 9, _ => 32
  | 10, _ => 32
  | 11, _ => 32
  | 12, _ => 32
  | 13, _ => 44
  | 15, _ => 44
  | _, _ => 8

/-- `resolve(id, total_bits, ctx)` (rule R184); a triple not listed resolves to nothing. -/
def resolve (id : BitVec 4) (total : Nat) (ctx : RxContext) : Option Kind :=
  match id.toNat, total with
  | 0, 12 => some .pom
  | 1, 12 => some .adrHigh
  | 2, 12 => some .adrLow
  | 3, 18 => some .ext
  | 3, 12 => if ctx = .mobile then some .drivingInfo else some .stat4
  | 4, 12 => if ctx = .mobile then some .basicInfo else some .stat1
  | 5, 12 => some .time
  | 6, 12 => some .error
  | 7, 18 => some .dyn
  | 8, 36 => some .xpom0
  | 8, 12 => some .stat2
  | 9, 36 => some .xpom1
  | 10, 36 => some .xpom2
  | 11, 36 => some .xpom3
  | 12, 36 => some .cvAuto
  | 13, 48 => some .decoderState
  | 13, 36 => some .block
  | 14, 12 => some .rerail
  | 15, 48 => some .decoderUnique
  | _, _ => none

/-- An extended-POM message (rule R198). -/
def xpomMsg (seq : BitVec 2) (p : Nat) : Msg :=
  .xpom seq (payloadField p 24 8) (payloadField p 16 8) (payloadField p 8 8) (payloadField p 0 8)

/-- An address-low message (rule R191): paired with the cached high half `hi` if that is not zero. -/
def adrLowMsg (hi : Byte) (p : Nat) : Msg :=
  if hi ≠ 0 then .adrLow (payloadField p 0 8) (hi.extractLsb' 0 6 ++ payloadField p 0 8) true
  else .adrLow (payloadField p 0 8) ((payloadField p 0 8).setWidth 14) false

/-- A decoder-state message (rule R196); `frame` is the accumulated bits. -/
def decoderStateMsg (frame : List Bool) (p : Nat) : Msg :=
  .decoderState (payloadField p 36 8) (payloadField p 24 12) (payloadField p 8 16) (payloadField p 0 8)
    (decoderStateCrcValid frame (payloadField p 0 8))

/-- `construct(k, p)` (rules R188 to R198) from the payload `p`, the accumulated bits and the cached high half. The
two kinds without an ID are never resolved (rule R210). -/
def construct (k : Kind) (p : Nat) (frame : List Bool) (hi : Byte) : Option Msg :=
  match k with
  | .pom => some (.pom (payloadField p 0 8))
  | .adrHigh => some (.adrHigh (payloadField p 0 8))
  | .adrLow => some (adrLowMsg hi p)
  | .ext => some (.ext (payloadField p 8 6) (payloadField p 0 8))
  | .stat4 => some (.stat4 (payloadField p 0 8))
  | .drivingInfo => some (.drivingInfo (payloadField p 0 8))
  | .basicInfo => some (.basicInfo (payloadField p 0 8))
  | .stat1 => some (.stat1 (payloadField p 0 8))
  | .time => some (.time (p.testBit 7) (payloadField p 0 7))
  | .error => some (.error (payloadField p 0 8))
  | .dyn => some (.dyn (payloadField p 6 8) (payloadField p 0 6))
  | .xpom0 => some (xpomMsg 0 p)
  | .xpom1 => some (xpomMsg 1 p)
  | .xpom2 => some (xpomMsg 2 p)
  | .xpom3 => some (xpomMsg 3 p)
  | .stat2 => some (.stat2 (payloadField p 0 8))
  | .cvAuto => some (.cvAuto (payloadField p 8 24) (payloadField p 0 8))
  | .block => some (.block (payloadField p 0 32))
  | .decoderState => some (decoderStateMsg frame p)
  | .rerail => some (.rerail (payloadField p 0 8))
  | .decoderUnique => some (.decoderUnique (payloadField p 32 12) (payloadField p 0 32))
  | .srq => none
  | .dataSpace => none

/-- The address cache after a delivered message (rules R190, R191, R199): kept by address-high only. -/
def cacheAfter (k : Kind) (p : Nat) : Byte :=
  if k = .adrHigh then payloadField p 0 8 else 0

/-- Idle with an empty accumulator (rules R182, R186). -/
def rxClear (r : Receiver) : Receiver := { r with rxState := .idle, rxAcc := [] }

/-- The candidate ID: the first 4 accumulated bits (rule R186). -/
def rxId (acc : List Bool) : BitVec 4 := BitVec.ofNat 4 (bitsVal (acc.take 4))

/-- The payload: the bits after the ID up to the total length (rule R186). -/
def rxPayload (acc : List Bool) (total : Nat) : Nat := bitsVal ((acc.drop 4).take (total - 4))

/-- The end of a step (rule R186): a complete datagram is resolved, delivered and cleared; nothing resolved is
dropped (rule R184) and leaves the cache alone (rule R199). -/
def rxDeliver (r : Receiver) : Receiver × Option Msg :=
  if r.rxState = .reading ∧ r.rxTotal.toNat ≤ r.rxAcc.length then
    let p := rxPayload r.rxAcc r.rxTotal.toNat
    match resolve (rxId r.rxAcc) r.rxTotal.toNat r.rxContext with
    | none => (rxClear r, none)
    | some k =>
      match construct k p r.rxAcc r.rxAdrHigh with
      | none => (rxClear r, none)
      | some m => ({ rxClear r with rxAdrHigh := cacheAfter k p }, some m)
  else (r, none)

/-- The Idle test (rule R186), then the Reading test in the same step. -/
def rxExamine (r : Receiver) : Receiver × Option Msg :=
  if r.rxState = .idle ∧ 8 ≤ r.rxAcc.length then
    let bits := expectedBits (rxId r.rxAcc) r.rxContext
    if bits = 0 then (rxClear r, none)
    else rxDeliver { r with rxTotal := BitVec.ofNat 6 (4 + bits), rxState := .reading }
  else rxDeliver r

/-- `rx_step(b)` (rules R182, R186, R209). -/
def rxStep (cfg : Config) (b : Byte) (r : Receiver) : Receiver × Option Msg :=
  match decode4of8 cfg b with
  | .data v => rxExamine { r with rxAcc := r.rxAcc ++ bitsOf 6 v.toNat }
  | .ack1 => (rxClear r, none)
  | .ack2 => (rxClear r, none)
  | .nack => (rxClear r, none)
  | .invalid => (rxClear r, none)

/-- The byte steps of one read, the messages in the order completed (rule R207). -/
def rxSteps (cfg : Config) : List Byte → Receiver → Receiver × List Msg
  | [], r => (r, [])
  | b :: rest, r =>
    let first := rxStep cfg b r
    let after := rxSteps cfg rest first.1
    (after.1, first.2.toList ++ after.2)

/-- The message of a data-space response's whole bytes, if they are one (rules R200, R202, R203, R205). -/
def dataSpaceMsg (num : Byte) (whole : List Byte) : Option Msg :=
  match whole with
  | [] => none
  | lenByte :: rest =>
    let l := (lenByte &&& dsLenMask).toNat
    if dsMaxPayload < l then none
    else if whole.length ≠ l + 2 then none
    else
      let crc := rest.getD l 0
      some (.dataSpace num lenByte (rest.take l) crc (dataSpaceCrcValid num lenByte (rest.take l) crc))

/-- `rx_dataspace(bytes)` (rules R200, R201, R204): one read, the flag and the byte-stream state cleared whatever
the outcome. -/
def rxDataSpace (cfg : Config) (bytes : List Byte) (r : Receiver) : Receiver × List Msg :=
  let r1 := { rxClear r with rxExpectDs := false, rxAdrHigh := 0 }
  match dataSymbols cfg bytes with
  | none => (r1, [])
  | some symbols => (r1, (dataSpaceMsg r.rxExpectDsNum (octets (unpack symbols))).toList)

/-- `rx_read` once its bytes are polled (rule R207). -/
def rxRead (cfg : Config) (bytes : List Byte) (r : Receiver) : Receiver × List Msg :=
  if r.rxExpectDs then rxDataSpace cfg bytes r else rxSteps cfg bytes r

/-- The rounds of `poll` after its first (rule R208): they end when `timeout` microseconds have passed since
`start`. -/
def pollRounds (start timeout : Word32) : List RxSample → List RxSample
  | [] => []
  | x :: rest => if waitOver start x.now timeout then [] else x :: pollRounds start timeout rest

/-- A round in which nothing waits. -/
def quietRound : RxSample := { now := 0, count := 0, bytes := [] }

/-- The rounds of `poll(rx_transport, timeout_us)` (rule R208): the body runs once before the first test, so a read
that is given no round makes one in which nothing waits. Where the rounds given end before the timeout nothing more
arrives (log entry 9). -/
def poll (timeout : Word32) : List RxSample → List RxSample
  | [] => [quietRound]
  | x :: rest => x :: pollRounds x.now timeout rest

/-- The inner loop of a round (rule R208): what each `read()` returns, at most as many as `available()` counted, the
first that returns none being the last. -/
def readLoop : Nat → List Byte → List (Option Byte)
  | 0, _ => []
  | _ + 1, [] => [none]
  | n + 1, b :: rest => some b :: readLoop n rest

/-- What the `read()` calls of one round return (rules R208, R437). -/
def roundReads (x : RxSample) : List (Option Byte) := readLoop x.count x.bytes

/-- The bytes gathered (rule R208). -/
def polledBytes (rounds : List RxSample) : List Byte := rounds.flatMap fun x => (roundReads x).reduceOption

/-- The transport calls of one round (rule R208): `available()`, then its `read()` calls. -/
def pollCalls (x : RxSample) : List Call := .available .rx x.count :: (roundReads x).map (.read .rx)

/-- The round in which exactly these bytes wait and are read. -/
def roundOf (bytes : List Byte) : RxSample := { now := 0, count := bytes.length, bytes := bytes }

/-- A read of `bytes` as a step of the engine; `calls` are the transport calls it made (rules R207, R426). -/
def readBytes (bytes : List Byte) (calls : List Call) (s : State) : Host.Outcome State Fault Refusal :=
  .next { s with
    rcv := (rxRead s.cfg bytes s.rcv).1
    out := { messages := some (rxRead s.cfg bytes s.rcv).2, calls := calls } }

/-- A symbol or a datagram on the receive line: the read that takes exactly its bytes in one polling round
(rules R186, R207, R208; log entry 1). -/
def readLine (bytes : List Byte) (s : State) : Host.Outcome State Fault Refusal :=
  readBytes bytes (pollCalls (roundOf bytes)) s

end Sys2Proof.Machine
end

