-- ==== Sys2Proof/Machine/HostOps.lean ====
section
/-! DEFINITION. The meanings of the host operations, rows `OP.` (45_host_ops.md and the rules each names). -/

namespace Sys2Proof.Machine

/-- `reset` (rule R450): the table of rule R52 in one step, no transport call. The parameters (rule R452) and the
waiting triggers (rule R425) stay. -/
def execOpReset (s : State) : Host.Outcome State Fault Refusal :=
  .next { s with dec := Decoder.reset, rcv := Receiver.reset, out := {} }

/-- `tx_begin` (rule R395). -/
def execOpTxBegin (s : State) : Host.Outcome State Fault Refusal :=
  callsOnly [.beginPort .tx, .setBaudrate .tx baudIdle] s

/-- `tx_end` (rule R396). -/
def execOpTxEnd (s : State) : Host.Outcome State Fault Refusal := callsOnly [.endPort .tx] s

/-- `rx_begin` (rule R397). -/
def execOpRxBegin (s : State) : Host.Outcome State Fault Refusal :=
  callsOnly [.beginPort .rx, .setBaudrate .rx baudRailcom] s

/-- `rx_end` (rule R398). -/
def execOpRxEnd (s : State) : Host.Outcome State Fault Refusal := callsOnly [.endPort .rx] s

/-- `cv_auto_tick` (rule R345). -/
def execOpCvAutoTick (s : State) : Host.Outcome State Fault Refusal := onDecoder cvAutoTick s

/-- `second_tick` (rule R394). -/
def execOpSecondTick (s : State) : Host.Outcome State Fault Refusal :=
  onDecoder (fun _ d => { d with uptimeS := satAdd d.uptimeS 1 }) s

/-- `sendPom` (rule R230). -/
def execOpSendPom (value : Byte) (s : State) : Host.Outcome State Fault Refusal :=
  onDecoder (fun cfg => sendPom cfg value) s

/-- `sendAddress` (rule R226). -/
def execOpSendAddress (address : BitVec 14) (long : Bool) (s : State) : Host.Outcome State Fault Refusal :=
  onDecoder (fun cfg => sendAddress cfg address long) s

/-- `sendDynamic` (rule R231). -/
def execOpSendDynamic (value : Byte) (subindex : BitVec 6) (s : State) : Host.Outcome State Fault Refusal :=
  onDecoder (fun cfg => sendDynamic cfg value subindex) s

/-- `sendXpom` (rule R232). -/
def execOpSendXpom (seq d0 d1 d2 d3 : Byte) (s : State) : Host.Outcome State Fault Refusal :=
  onDecoder (fun cfg => sendXpom cfg seq d0 d1 d2 d3) s

/-- `sendStatus1` (rule R233). -/
def execOpSendStatus1 (status : Byte) (s : State) : Host.Outcome State Fault Refusal :=
  onDecoder (fun cfg => sendStatus1 cfg status) s

/-- `sendStatus2` (rule R234). -/
def execOpSendStatus2 (status : Byte) (s : State) : Host.Outcome State Fault Refusal :=
  onDecoder (fun cfg => sendStatus2 cfg status) s

/-- `sendStatus4` (rule R235). -/
def execOpSendStatus4 (status : Byte) (s : State) : Host.Outcome State Fault Refusal :=
  onDecoder (fun cfg => sendStatus4 cfg status) s

/-- `sendTime` (rule R236). -/
def execOpSendTime (value : Byte) (unit : Bool) (s : State) : Host.Outcome State Fault Refusal :=
  onDecoder (fun cfg => sendTime cfg value unit) s

/-- `sendError` (rule R237). -/
def execOpSendError (code : Byte) (s : State) : Host.Outcome State Fault Refusal :=
  onDecoder (fun cfg => sendError cfg code) s

/-- `sendCvAuto` (rule R238). -/
def execOpSendCvAuto (cv : BitVec 24) (value : Byte) (s : State) : Host.Outcome State Fault Refusal :=
  onDecoder (fun cfg => sendCvAuto cfg cv value) s

/-- `sendDecoderUnique` (rule R239). -/
def execOpSendDecoderUnique (mfg : BitVec 12) (product : Word32) (s : State) : Host.Outcome State Fault Refusal :=
  onDecoder (fun cfg => sendDecoderUnique cfg mfg product) s

/-- `sendDecoderState` (rule R240). -/
def execOpSendDecoderState (flags : Byte) (count : BitVec 12) (caps : BitVec 16) (s : State) :
    Host.Outcome State Fault Refusal :=
  onDecoder (fun cfg => sendDecoderState cfg flags count caps) s

/-- `sendRerail` (rule R241). -/
def execOpSendRerail (seconds : BitVec 16) (s : State) : Host.Outcome State Fault Refusal :=
  onDecoder (fun cfg => sendRerail cfg seconds) s

/-- `sendServiceRequest` (rule R242). -/
def execOpSendServiceRequest (address : BitVec 16) (ext : Bool) (s : State) : Host.Outcome State Fault Refusal :=
  onDecoder (fun cfg => sendServiceRequest cfg address ext) s

/-- `sendExt` (rule R243). -/
def execOpSendExt (type : BitVec 6) (position : Byte) (s : State) : Host.Outcome State Fault Refusal :=
  onDecoder (fun cfg => sendExt cfg type position) s

/-- `sendDrivingInfo` (rule R244). -/
def execOpSendDrivingInfo (info : Byte) (s : State) : Host.Outcome State Fault Refusal :=
  onDecoder (fun cfg => sendDrivingInfo cfg info) s

/-- `sendBasicInfo` (rule R245). -/
def execOpSendBasicInfo (info : Byte) (s : State) : Host.Outcome State Fault Refusal :=
  onDecoder (fun cfg => sendBasicInfo cfg info) s

/-- `sendBlock` (rule R246). -/
def execOpSendBlock (data : Word32) (s : State) : Host.Outcome State Fault Refusal :=
  onDecoder (fun cfg => sendBlock cfg data) s

/-- `sendDataSpace` (rule R247). -/
def execOpSendDataSpace (num : Byte) (data : List Byte) (s : State) : Host.Outcome State Fault Refusal :=
  onDecoder (fun cfg => sendDataSpace cfg num data) s

/-- `set_address` (rule R382). -/
def execOpSetAddress (address : BitVec 14) (long : Bool) (s : State) : Host.Outcome State Fault Refusal :=
  onDecoder (fun _ d => { d with address := address, addrLong := long }) s

/-- `set_identity` (rule R383). -/
def execOpSetIdentity (mfg : BitVec 12) (product : Word32) (s : State) : Host.Outcome State Fault Refusal :=
  onDecoder (fun _ d => { d with mfgId := mfg, productId := product }) s

/-- `set_class` (rule R384). -/
def execOpSetClass (cls : DecoderClass) (kind : StatusKind) (s : State) : Host.Outcome State Fault Refusal :=
  onDecoder (fun _ d => { d with decoderClass := cls, statusKind := kind }) s

/-- `set_ext_info_enabled` (rule R388): every disable resets the rotation. -/
def execOpSetExtInfoEnabled (en : Bool) (s : State) : Host.Outcome State Fault Refusal :=
  onDecoder (fun _ d => { d with extInfoEnabled := en, rotIndex := if en then d.rotIndex else 0 }) s

/-- `set_ext_info` (rule R389). -/
def execOpSetExtInfo (info : Byte) (s : State) : Host.Outcome State Fault Refusal :=
  onDecoder (fun _ d => { d with extInfo := info }) s

/-- `set_ext_position` (rule R399). -/
def execOpSetExtPosition (type : BitVec 6) (position : Byte) (s : State) : Host.Outcome State Fault Refusal :=
  onDecoder (fun _ d => { d with extType := type, extPosition := position }) s

/-- `set_decoder_state_fields` (rule R400). -/
def execOpSetDecoderStateFields (flags : Byte) (count : BitVec 12) (caps : BitVec 16) (s : State) :
    Host.Outcome State Fault Refusal :=
  onDecoder (fun _ d => { d with dsFlags := flags, dsCount := count, dsCaps := caps }) s

/-- `cv_set` (rule R385). -/
def execOpCvSet (key : BitVec 24) (value : Byte) (s : State) : Host.Outcome State Fault Refusal :=
  onDecoder (fun cfg d => { d with cv := cvSet cfg key value d.cv }) s

/-- `cv_clear` (rule R386). -/
def execOpCvClear (s : State) : Host.Outcome State Fault Refusal :=
  onDecoder (fun _ d => { d with cv := [], cvCursor := 0 }) s

/-- `ds_set` (rule R387). -/
def execOpDsSet (num : Byte) (bytes : List Byte) (s : State) : Host.Outcome State Fault Refusal :=
  onDecoder (fun cfg d => { d with ds := dsSet cfg num bytes d.ds }) s

/-- `ds_clear` (rule R393). -/
def execOpDsClear (s : State) : Host.Outcome State Fault Refusal :=
  onDecoder (fun _ d => { d with ds := [] }) s

/-- `logon_reset` (rule R392). -/
def execOpLogonReset (s : State) : Host.Outcome State Fault Refusal :=
  onDecoder (fun _ d => { d with logonState := .idle }) s

/-- `rx_set_context` (rule R391). -/
def execOpRxSetContext (ctx : BitVec 2) (s : State) : Host.Outcome State Fault Refusal :=
  onReceiver (fun r => { r with rxContext := contextOfCode ctx }) s

/-- `rx_expect_data_space` (rule R390). -/
def execOpRxExpectDataSpace (num : Byte) (s : State) : Host.Outcome State Fault Refusal :=
  onReceiver (fun r => { r with rxExpectDs := true, rxExpectDsNum := num }) s

/-- `rx_cache_timeout` (rule R206). -/
def execOpRxCacheTimeout (s : State) : Host.Outcome State Fault Refusal :=
  onReceiver (fun r => { r with rxAdrHigh := 0 }) s

/-- `rx_read` (rules R207, R208). -/
def execOpRxRead (timeoutUs : Word32) (line : List RxSample) (s : State) : Host.Outcome State Fault Refusal :=
  readBytes (polledBytes (poll timeoutUs line)) ((poll timeoutUs line).flatMap pollCalls) s

end Sys2Proof.Machine
end

