-- ==== Sys2Proof/Machine/Line.lean ====
section
/-! DEFINITION. The meanings of the datagrams and of the symbols on the receive line, rows `DG.` and `SYM.`: the read
that takes exactly their bytes (rules R186, R200, R207; log entry 1). -/

namespace Sys2Proof.Machine

/-- POM on the receive line (rule R188). -/
def execDgPom (value : Byte) (s : State) : Host.Outcome State Fault Refusal :=
  readLine (wirePom s.cfg value) s

/-- ADR_HIGH on the receive line (rule R190). -/
def execDgAdrHigh (raw : Byte) (s : State) : Host.Outcome State Fault Refusal :=
  readLine (wireAdrHigh s.cfg raw) s

/-- ADR_LOW on the receive line (rule R191). -/
def execDgAdrLow (raw : Byte) (s : State) : Host.Outcome State Fault Refusal :=
  readLine (wireAdrLow s.cfg raw) s

/-- EXT on the receive line (rule R192). -/
def execDgExt (type : BitVec 6) (position : Byte) (s : State) : Host.Outcome State Fault Refusal :=
  readLine (wireExt s.cfg type position) s

/-- STAT4 on the receive line (rule R193). -/
def execDgStat4 (status : Byte) (s : State) : Host.Outcome State Fault Refusal :=
  readLine (wireStat4 s.cfg status) s

/-- DRIVING_INFO on the receive line (rule R210). -/
def execDgDrivingInfo (info : Byte) (s : State) : Host.Outcome State Fault Refusal :=
  readLine (wireDrivingInfo s.cfg info) s

/-- BASIC_INFO on the receive line (rule R194). -/
def execDgBasicInfo (info : Byte) (s : State) : Host.Outcome State Fault Refusal :=
  readLine (wireBasicInfo s.cfg info) s

/-- STAT1 on the receive line (rule R193). -/
def execDgStat1 (status : Byte) (s : State) : Host.Outcome State Fault Refusal :=
  readLine (wireStat1 s.cfg status) s

/-- TIME on the receive line (rule R195). -/
def execDgTime (unit : Bool) (value : BitVec 7) (s : State) : Host.Outcome State Fault Refusal :=
  readLine (wireTime s.cfg unit value) s

/-- ERROR on the receive line (rule R195). -/
def execDgError (code : Byte) (s : State) : Host.Outcome State Fault Refusal :=
  readLine (wireError s.cfg code) s

/-- DYN on the receive line (rule R197). -/
def execDgDyn (value : Byte) (subindex : BitVec 6) (s : State) : Host.Outcome State Fault Refusal :=
  readLine (wireDyn s.cfg value subindex) s

/-- XPOM_0 on the receive line (rule R198). -/
def execDgXpom0 (d0 d1 d2 d3 : Byte) (s : State) : Host.Outcome State Fault Refusal :=
  readLine (wireXpom s.cfg 0 d0 d1 d2 d3) s

/-- XPOM_1 on the receive line (rule R198). -/
def execDgXpom1 (d0 d1 d2 d3 : Byte) (s : State) : Host.Outcome State Fault Refusal :=
  readLine (wireXpom s.cfg 1 d0 d1 d2 d3) s

/-- XPOM_2 on the receive line (rule R198). -/
def execDgXpom2 (d0 d1 d2 d3 : Byte) (s : State) : Host.Outcome State Fault Refusal :=
  readLine (wireXpom s.cfg 2 d0 d1 d2 d3) s

/-- XPOM_3 on the receive line (rule R198). -/
def execDgXpom3 (d0 d1 d2 d3 : Byte) (s : State) : Host.Outcome State Fault Refusal :=
  readLine (wireXpom s.cfg 3 d0 d1 d2 d3) s

/-- STAT2 on the receive line (rule R210). -/
def execDgStat2 (status : Byte) (s : State) : Host.Outcome State Fault Refusal :=
  readLine (wireStat2 s.cfg status) s

/-- CV_AUTO on the receive line (rule R198). -/
def execDgCvAuto (cv : BitVec 24) (value : Byte) (s : State) : Host.Outcome State Fault Refusal :=
  readLine (wireCvAuto s.cfg cv value) s

/-- BLOCK on the receive line (rule R210). -/
def execDgBlock (data : Word32) (s : State) : Host.Outcome State Fault Refusal :=
  readLine (wireBlock s.cfg data) s

/-- DECODER_STATE on the receive line (rule R196). -/
def execDgDecoderState (flags : Byte) (count : BitVec 12) (caps : BitVec 16) (crc : Byte) (s : State) :
    Host.Outcome State Fault Refusal :=
  readLine (wireDecoderState s.cfg flags count caps crc) s

/-- RERAIL on the receive line (rule R198). -/
def execDgRerail (seconds : Byte) (s : State) : Host.Outcome State Fault Refusal :=
  readLine (wireRerail s.cfg seconds) s

/-- DECODER_UNIQUE on the receive line (rule R198). -/
def execDgDecoderUnique (mfg : BitVec 12) (product : Word32) (s : State) : Host.Outcome State Fault Refusal :=
  readLine (wireDecoderUnique s.cfg mfg product) s

/-- SRQ on the receive line (rule R210). -/
def execDgSrq (ext : Bool) (address : BitVec 11) (s : State) : Host.Outcome State Fault Refusal :=
  readLine (wireSrq s.cfg ext address) s

/-- DATA_SPACE on the receive line (rule R200). -/
def execDgDataSpace (data : List Byte) (crc : Byte) (s : State) : Host.Outcome State Fault Refusal :=
  readLine (wireDataSpace s.cfg data crc) s

/-- ACK1 on the receive line (rules R152, R209). -/
def execSymAck1 (s : State) : Host.Outcome State Fault Refusal := readLine [ack1] s

/-- ACK2 on the receive line (rules R152, R209). -/
def execSymAck2 (s : State) : Host.Outcome State Fault Refusal := readLine [ack2] s

/-- NACK on the receive line (rules R152, R209). -/
def execSymNack (s : State) : Host.Outcome State Fault Refusal := readLine [nack] s

/-- A data symbol on the receive line (rules R151, R152, R186). -/
def execSymData (v : BitVec 6) (s : State) : Host.Outcome State Fault Refusal :=
  readLine [encode4of8 s.cfg v.toNat] s

end Sys2Proof.Machine
end

