-- ==== Sys2Proof/Machine/Packets.lean ====
section
/-! DEFINITION. The meanings of the DCC packets, rows `DCC.`: `dcc_packet` (rule R320) with the command the packet's
format names (rules R285 to R296), and of the trigger row for a packet given as raw bytes. -/

namespace Sys2Proof.Machine

/-- LOGON_ENABLE (rules R285, R330). -/
def execDccLogonEnable (group : BitVec 2) (cid : BitVec 16) (session : Byte) (s : State) :
    Host.Outcome State Fault Refusal :=
  runCmd (.logonEnable group cid session) s

/-- SELECT (rules R286, R333). -/
def execDccSelect (mfg : BitVec 12) (uid : Word32) (sub : Byte) (params : List Byte) (s : State) :
    Host.Outcome State Fault Refusal :=
  runCmd (.select mfg uid sub params) s

/-- LOGON_ASSIGN (rules R287, R334). -/
def execDccLogonAssign (mfg : BitVec 12) (uid : Word32) (akind : BitVec 2) (addr : BitVec 14) (s : State) :
    Host.Outcome State Fault Refusal :=
  runCmd (.logonAssign mfg uid akind addr) s

/-- GET_DATA_START (rules R288, R336). -/
def execDccGetDataStart (s : State) : Host.Outcome State Fault Refusal := runCmd .getDataStart s

/-- GET_DATA_CONT (rules R288, R336). -/
def execDccGetDataCont (s : State) : Host.Outcome State Fault Refusal := runCmd .getDataCont s

/-- SET_DATA (rules R289, R336). -/
def execDccSetData (data : List Byte) (s : State) : Host.Outcome State Fault Refusal := runCmd (.setData data) s

/-- SET_DATA_END (rules R289, R336). -/
def execDccSetDataEnd (data : List Byte) (s : State) : Host.Outcome State Fault Refusal := runCmd (.setDataEnd data) s

/-- POM_READ, Broadcast form (rules R290, R335). -/
def execDccPomReadBroadcast (v : BitVec 10) (s : State) : Host.Outcome State Fault Refusal :=
  runCmd (.pomRead .broadcast 0 (cvNumber v)) s

/-- POM_READ, Short form (rules R290, R335). -/
def execDccPomReadShort (a : BitVec 7) (v : BitVec 10) (s : State) : Host.Outcome State Fault Refusal :=
  runCmd (.pomRead .short (shortAddress a) (cvNumber v)) s

/-- POM_READ, Long form (rules R290, R335). -/
def execDccPomReadLong (a : BitVec 14) (v : BitVec 10) (s : State) : Host.Outcome State Fault Refusal :=
  runCmd (.pomRead .long a (cvNumber v)) s

/-- POM_WRITE, Broadcast form (rules R291, R338). -/
def execDccPomWriteBroadcast (v : BitVec 10) (d : Byte) (s : State) : Host.Outcome State Fault Refusal :=
  runCmd (.pomWrite .broadcast 0 (cvNumber v) d) s

/-- POM_WRITE, Short form (rules R291, R338). -/
def execDccPomWriteShort (a : BitVec 7) (v : BitVec 10) (d : Byte) (s : State) : Host.Outcome State Fault Refusal :=
  runCmd (.pomWrite .short (shortAddress a) (cvNumber v) d) s

/-- POM_WRITE, Long form (rules R291, R338). -/
def execDccPomWriteLong (a : BitVec 14) (v : BitVec 10) (d : Byte) (s : State) : Host.Outcome State Fault Refusal :=
  runCmd (.pomWrite .long a (cvNumber v) d) s

/-- POM_WRITE_BIT, Broadcast form (rules R292, R339). -/
def execDccPomWriteBitBroadcast (v : BitVec 10) (d : Bool) (b : BitVec 3) (s : State) :
    Host.Outcome State Fault Refusal :=
  runCmd (.pomWriteBit .broadcast 0 (cvNumber v) b d) s

/-- POM_WRITE_BIT, Short form (rules R292, R339). -/
def execDccPomWriteBitShort (a : BitVec 7) (v : BitVec 10) (d : Bool) (b : BitVec 3) (s : State) :
    Host.Outcome State Fault Refusal :=
  runCmd (.pomWriteBit .short (shortAddress a) (cvNumber v) b d) s

/-- POM_WRITE_BIT, Long form (rules R292, R339). -/
def execDccPomWriteBitLong (a : BitVec 14) (v : BitVec 10) (d : Bool) (b : BitVec 3) (s : State) :
    Host.Outcome State Fault Refusal :=
  runCmd (.pomWriteBit .long a (cvNumber v) b d) s

/-- FUNCTION_G1, Broadcast form (rules R294, R340). -/
def execDccFunctionG1Broadcast (d : BitVec 5) (s : State) : Host.Outcome State Fault Refusal :=
  runCmd (.function .broadcast 0 0 (functionG1State d)) s

/-- FUNCTION_G1, Short form (rules R294, R340). -/
def execDccFunctionG1Short (a : BitVec 7) (d : BitVec 5) (s : State) : Host.Outcome State Fault Refusal :=
  runCmd (.function .short (shortAddress a) 0 (functionG1State d)) s

/-- FUNCTION_G1, Long form (rules R294, R340). -/
def execDccFunctionG1Long (a : BitVec 14) (d : BitVec 5) (s : State) : Host.Outcome State Fault Refusal :=
  runCmd (.function .long a 0 (functionG1State d)) s

/-- FUNCTION_G2_F5, Broadcast form (rules R294, R340). -/
def execDccFunctionG2F5Broadcast (d : BitVec 4) (s : State) : Host.Outcome State Fault Refusal :=
  runCmd (.function .broadcast 0 5 (functionG2State d)) s

/-- FUNCTION_G2_F5, Short form (rules R294, R340). -/
def execDccFunctionG2F5Short (a : BitVec 7) (d : BitVec 4) (s : State) : Host.Outcome State Fault Refusal :=
  runCmd (.function .short (shortAddress a) 5 (functionG2State d)) s

/-- FUNCTION_G2_F5, Long form (rules R294, R340). -/
def execDccFunctionG2F5Long (a : BitVec 14) (d : BitVec 4) (s : State) : Host.Outcome State Fault Refusal :=
  runCmd (.function .long a 5 (functionG2State d)) s

/-- FUNCTION_G2_F9, Broadcast form (rules R294, R340). -/
def execDccFunctionG2F9Broadcast (d : BitVec 4) (s : State) : Host.Outcome State Fault Refusal :=
  runCmd (.function .broadcast 0 9 (functionG2State d)) s

/-- FUNCTION_G2_F9, Short form (rules R294, R340). -/
def execDccFunctionG2F9Short (a : BitVec 7) (d : BitVec 4) (s : State) : Host.Outcome State Fault Refusal :=
  runCmd (.function .short (shortAddress a) 9 (functionG2State d)) s

/-- FUNCTION_G2_F9, Long form (rules R294, R340). -/
def execDccFunctionG2F9Long (a : BitVec 14) (d : BitVec 4) (s : State) : Host.Outcome State Fault Refusal :=
  runCmd (.function .long a 9 (functionG2State d)) s

/-- EXT_FUNCTION, Broadcast form (rules R295, R341 to R344). -/
def execDccExtFunctionBroadcast (c : Byte) (s : State) : Host.Outcome State Fault Refusal :=
  runCmd (.extFunction .broadcast 0 c) s

/-- EXT_FUNCTION, Short form (rules R295, R341 to R344). -/
def execDccExtFunctionShort (a : BitVec 7) (c : Byte) (s : State) : Host.Outcome State Fault Refusal :=
  runCmd (.extFunction .short (shortAddress a) c) s

/-- EXT_FUNCTION, Long form (rules R295, R341 to R344). -/
def execDccExtFunctionLong (a : BitVec 14) (c : Byte) (s : State) : Host.Outcome State Fault Refusal :=
  runCmd (.extFunction .long a c) s

/-- DATA_SPACE_READ, Broadcast form (rules R296, R347). -/
def execDccDataSpaceReadBroadcast (n o : Byte) (s : State) : Host.Outcome State Fault Refusal :=
  runCmd (.dataSpaceRead .broadcast 0 n o) s

/-- DATA_SPACE_READ, Short form (rules R296, R347). -/
def execDccDataSpaceReadShort (a : BitVec 7) (n o : Byte) (s : State) : Host.Outcome State Fault Refusal :=
  runCmd (.dataSpaceRead .short (shortAddress a) n o) s

/-- DATA_SPACE_READ, Long form (rules R296, R347). -/
def execDccDataSpaceReadLong (a : BitVec 14) (n o : Byte) (s : State) : Host.Outcome State Fault Refusal :=
  runCmd (.dataSpaceRead .long a n o) s

/-- ACCESSORY (rules R293, R337). -/
def execDccAccessory (a : BitVec 6) (h : BitVec 3) (c : Bool) (d : BitVec 3) (s : State) :
    Host.Outcome State Fault Refusal :=
  runCmd (.accessory (accessoryAddress a h) c d) s

/-- `dcc_packet(PKT, len)` on the raw bytes (rule R320). -/
def execTrigDccPacket (pkt : List Byte) (s : State) : Host.Outcome State Fault Refusal :=
  runCmd (classify s.cfg pkt) s

/-- `cutout_start(elapsed_us)` (rules R260 to R262). -/
def execTrigCutoutStart (elapsedUs : Word32) (s : State) : Host.Outcome State Fault Refusal :=
  .next { s with dec := flush s.dec, out := { calls := flushCalls elapsedUs s.dec } }

end Sys2Proof.Machine
end

