-- ==== Sys2Proof/Machine/Dispatch.lean ====
section
/-! DEFINITION. exec: the meaning of each instruction, one arm per row of spec/opcode_table.json. -/

namespace Sys2Proof.Machine

def exec (i : Instr) (s : State) : Host.Outcome State Fault Refusal :=
  match i with
  | .dccLogonEnable group cid session _ => Sys2Proof.Machine.execDccLogonEnable group cid session s
  | .dccSelect mfg uid sub params _ => Sys2Proof.Machine.execDccSelect mfg uid sub params s
  | .dccLogonAssign mfg uid akind addr _ _ => Sys2Proof.Machine.execDccLogonAssign mfg uid akind addr s
  | .dccGetDataStart _ => Sys2Proof.Machine.execDccGetDataStart s
  | .dccGetDataCont _ => Sys2Proof.Machine.execDccGetDataCont s
  | .dccSetData data _ => Sys2Proof.Machine.execDccSetData data s
  | .dccSetDataEnd data _ => Sys2Proof.Machine.execDccSetDataEnd data s
  | .dccPomReadBroadcast v _ _ => Sys2Proof.Machine.execDccPomReadBroadcast v s
  | .dccPomReadShort a v _ _ => Sys2Proof.Machine.execDccPomReadShort a v s
  | .dccPomReadLong a v _ _ => Sys2Proof.Machine.execDccPomReadLong a v s
  | .dccPomWriteBroadcast v d _ => Sys2Proof.Machine.execDccPomWriteBroadcast v d s
  | .dccPomWriteShort a v d _ => Sys2Proof.Machine.execDccPomWriteShort a v d s
  | .dccPomWriteLong a v d _ => Sys2Proof.Machine.execDccPomWriteLong a v d s
  | .dccPomWriteBitBroadcast v _ d b _ => Sys2Proof.Machine.execDccPomWriteBitBroadcast v d b s
  | .dccPomWriteBitShort a v _ d b _ => Sys2Proof.Machine.execDccPomWriteBitShort a v d b s
  | .dccPomWriteBitLong a v _ d b _ => Sys2Proof.Machine.execDccPomWriteBitLong a v d b s
  | .dccFunctionG1Broadcast d _ => Sys2Proof.Machine.execDccFunctionG1Broadcast d s
  | .dccFunctionG1Short a d _ => Sys2Proof.Machine.execDccFunctionG1Short a d s
  | .dccFunctionG1Long a d _ => Sys2Proof.Machine.execDccFunctionG1Long a d s
  | .dccFunctionG2F5Broadcast d _ => Sys2Proof.Machine.execDccFunctionG2F5Broadcast d s
  | .dccFunctionG2F5Short a d _ => Sys2Proof.Machine.execDccFunctionG2F5Short a d s
  | .dccFunctionG2F5Long a d _ => Sys2Proof.Machine.execDccFunctionG2F5Long a d s
  | .dccFunctionG2F9Broadcast d _ => Sys2Proof.Machine.execDccFunctionG2F9Broadcast d s
  | .dccFunctionG2F9Short a d _ => Sys2Proof.Machine.execDccFunctionG2F9Short a d s
  | .dccFunctionG2F9Long a d _ => Sys2Proof.Machine.execDccFunctionG2F9Long a d s
  | .dccExtFunctionBroadcast c _ => Sys2Proof.Machine.execDccExtFunctionBroadcast c s
  | .dccExtFunctionShort a c _ => Sys2Proof.Machine.execDccExtFunctionShort a c s
  | .dccExtFunctionLong a c _ => Sys2Proof.Machine.execDccExtFunctionLong a c s
  | .dccDataSpaceReadBroadcast n o _ => Sys2Proof.Machine.execDccDataSpaceReadBroadcast n o s
  | .dccDataSpaceReadShort a n o _ => Sys2Proof.Machine.execDccDataSpaceReadShort a n o s
  | .dccDataSpaceReadLong a n o _ => Sys2Proof.Machine.execDccDataSpaceReadLong a n o s
  | .dccAccessory a h c d _ => Sys2Proof.Machine.execDccAccessory a h c d s
  | .dgPom value => Sys2Proof.Machine.execDgPom value s
  | .dgAdrHigh raw => Sys2Proof.Machine.execDgAdrHigh raw s
  | .dgAdrLow raw => Sys2Proof.Machine.execDgAdrLow raw s
  | .dgExt type position => Sys2Proof.Machine.execDgExt type position s
  | .dgStat4 status => Sys2Proof.Machine.execDgStat4 status s
  | .dgDrivingInfo info => Sys2Proof.Machine.execDgDrivingInfo info s
  | .dgBasicInfo info => Sys2Proof.Machine.execDgBasicInfo info s
  | .dgStat1 status => Sys2Proof.Machine.execDgStat1 status s
  | .dgTime unit value => Sys2Proof.Machine.execDgTime unit value s
  | .dgError code => Sys2Proof.Machine.execDgError code s
  | .dgDyn value subindex => Sys2Proof.Machine.execDgDyn value subindex s
  | .dgXpom0 d0 d1 d2 d3 => Sys2Proof.Machine.execDgXpom0 d0 d1 d2 d3 s
  | .dgXpom1 d0 d1 d2 d3 => Sys2Proof.Machine.execDgXpom1 d0 d1 d2 d3 s
  | .dgXpom2 d0 d1 d2 d3 => Sys2Proof.Machine.execDgXpom2 d0 d1 d2 d3 s
  | .dgXpom3 d0 d1 d2 d3 => Sys2Proof.Machine.execDgXpom3 d0 d1 d2 d3 s
  | .dgStat2 status => Sys2Proof.Machine.execDgStat2 status s
  | .dgCvAuto cv value => Sys2Proof.Machine.execDgCvAuto cv value s
  | .dgBlock data => Sys2Proof.Machine.execDgBlock data s
  | .dgDecoderState flags count caps crc => Sys2Proof.Machine.execDgDecoderState flags count caps crc s
  | .dgRerail seconds => Sys2Proof.Machine.execDgRerail seconds s
  | .dgDecoderUnique mfg product => Sys2Proof.Machine.execDgDecoderUnique mfg product s
  | .dgSrq ext address => Sys2Proof.Machine.execDgSrq ext address s
  | .dgDataSpace data crc => Sys2Proof.Machine.execDgDataSpace data crc s
  | .symAck1 => Sys2Proof.Machine.execSymAck1 s
  | .symAck2 => Sys2Proof.Machine.execSymAck2 s
  | .symNack => Sys2Proof.Machine.execSymNack s
  | .symData v => Sys2Proof.Machine.execSymData v s
  | .opReset => Sys2Proof.Machine.execOpReset s
  | .opTxBegin => Sys2Proof.Machine.execOpTxBegin s
  | .opTxEnd => Sys2Proof.Machine.execOpTxEnd s
  | .opRxBegin => Sys2Proof.Machine.execOpRxBegin s
  | .opRxEnd => Sys2Proof.Machine.execOpRxEnd s
  | .opCvAutoTick => Sys2Proof.Machine.execOpCvAutoTick s
  | .opSecondTick => Sys2Proof.Machine.execOpSecondTick s
  | .opSendPom value => Sys2Proof.Machine.execOpSendPom value s
  | .opSendAddress address long => Sys2Proof.Machine.execOpSendAddress address long s
  | .opSendDynamic value subindex => Sys2Proof.Machine.execOpSendDynamic value subindex s
  | .opSendXpom seq d0 d1 d2 d3 => Sys2Proof.Machine.execOpSendXpom seq d0 d1 d2 d3 s
  | .opSendStatus1 status => Sys2Proof.Machine.execOpSendStatus1 status s
  | .opSendStatus2 status => Sys2Proof.Machine.execOpSendStatus2 status s
  | .opSendStatus4 status => Sys2Proof.Machine.execOpSendStatus4 status s
  | .opSendTime value unit => Sys2Proof.Machine.execOpSendTime value unit s
  | .opSendError code => Sys2Proof.Machine.execOpSendError code s
  | .opSendCvAuto cv value => Sys2Proof.Machine.execOpSendCvAuto cv value s
  | .opSendDecoderUnique mfg product => Sys2Proof.Machine.execOpSendDecoderUnique mfg product s
  | .opSendDecoderState flags count caps => Sys2Proof.Machine.execOpSendDecoderState flags count caps s
  | .opSendRerail seconds => Sys2Proof.Machine.execOpSendRerail seconds s
  | .opSendServiceRequest address ext => Sys2Proof.Machine.execOpSendServiceRequest address ext s
  | .opSendExt type position => Sys2Proof.Machine.execOpSendExt type position s
  | .opSendDrivingInfo info => Sys2Proof.Machine.execOpSendDrivingInfo info s
  | .opSendBasicInfo info => Sys2Proof.Machine.execOpSendBasicInfo info s
  | .opSendBlock data => Sys2Proof.Machine.execOpSendBlock data s
  | .opSendDataSpace num data => Sys2Proof.Machine.execOpSendDataSpace num data s
  | .opSetAddress address long => Sys2Proof.Machine.execOpSetAddress address long s
  | .opSetIdentity mfg product => Sys2Proof.Machine.execOpSetIdentity mfg product s
  | .opSetClass cls kind => Sys2Proof.Machine.execOpSetClass cls kind s
  | .opSetExtInfoEnabled en => Sys2Proof.Machine.execOpSetExtInfoEnabled en s
  | .opSetExtInfo info => Sys2Proof.Machine.execOpSetExtInfo info s
  | .opSetExtPosition type position => Sys2Proof.Machine.execOpSetExtPosition type position s
  | .opSetDecoderStateFields flags count caps => Sys2Proof.Machine.execOpSetDecoderStateFields flags count caps s
  | .opCvSet key value => Sys2Proof.Machine.execOpCvSet key value s
  | .opCvClear => Sys2Proof.Machine.execOpCvClear s
  | .opDsSet num bytes => Sys2Proof.Machine.execOpDsSet num bytes s
  | .opDsClear => Sys2Proof.Machine.execOpDsClear s
  | .opLogonReset => Sys2Proof.Machine.execOpLogonReset s
  | .opRxSetContext ctx => Sys2Proof.Machine.execOpRxSetContext ctx s
  | .opRxExpectDataSpace num => Sys2Proof.Machine.execOpRxExpectDataSpace num s
  | .opRxCacheTimeout => Sys2Proof.Machine.execOpRxCacheTimeout s
  | .opRxRead timeoutUs line => Sys2Proof.Machine.execOpRxRead timeoutUs line s
  | .trigDccPacket pkt => Sys2Proof.Machine.execTrigDccPacket pkt s
  | .trigCutoutStart elapsedUs => Sys2Proof.Machine.execTrigCutoutStart elapsedUs s

end Sys2Proof.Machine
end

