-- ==== Sys2Proof/Machine/Step.lean ====
section
/-! DEFINITION. One step of the engine: take the next waiting trigger (rule R425), decode it, run it to completion
(rule R413). -/

namespace Sys2Proof.Machine

/-- One step. With no trigger waiting the engine is idle and keeps all state (rule R430). -/
def step (s : State) : Host.Outcome State Fault Refusal :=
  match takeTrigger s.port with
  | none => .next s
  | some (t, waiting) =>
    match decode s.cfg t with
    | .ok i => exec i { s with port := waiting }
    | .error _ => ignored { s with port := waiting }

/-- The state with the word of a table row presented as the one waiting trigger, or with none where the word is no
row's (log entry 2). -/
def State.withFetchWord (s : State) (nbits w : Nat) : State :=
  match tableTrigger nbits w with
  | some t => presentOnly t s
  | none => { s with port := [] }

end Sys2Proof.Machine
end

