-- ==== Sys2Proof/Safety.lean ====
section
/-! DEFINITION. What claims are stated in: the invariant of the stores and registers, and the host contract of rule
R439 as predicates on the state and on the triggers presented. -/

namespace Sys2Proof.Safety

open Sys2Proof.Machine

/-- An entry is 1 to `ENTRY_MAX_BYTES` bytes (rule R43), each an entry of `ENC4OF8` (rule R154). -/
abbrev EntryOk (cfg : Config) (e : Entry) : Prop :=
  1 ≤ e.length ∧ e.length ≤ cfg.entryMaxBytes ∧ ∀ b ∈ e, b ∈ cfg.enc4of8

/-- The channel queues keep their depths and hold well-formed entries (rules R43, R154). -/
abbrev QueuesOk (cfg : Config) (d : Decoder) : Prop :=
  d.ch1Q.length ≤ cfg.ch1Depth ∧ d.ch2Q.length ≤ cfg.ch2Depth ∧
    (∀ e ∈ d.ch1Q, EntryOk cfg e) ∧ (∀ e ∈ d.ch2Q, EntryOk cfg e)

/-- The CV map keeps its capacity and its keys are pairwise distinct (rule R44); the cursor stays in range
(rules R35, R473). -/
abbrev CvOk (cfg : Config) (d : Decoder) : Prop :=
  d.cv.length ≤ cfg.cvCapacity ∧ (d.cv.map (·.1)).Nodup ∧ d.cvCursor < max d.cv.length 1

/-- The data-space store keeps its capacities and its numbers are pairwise distinct (rule R45). -/
abbrev DsOk (cfg : Config) (d : Decoder) : Prop :=
  d.ds.length ≤ cfg.dsCapacity ∧ (d.ds.map (·.num)).Nodup ∧ ∀ r ∈ d.ds, r.bytes.length ≤ cfg.dsMaxLen

/-- `rot_index = 2` occurs only while the optional step is enabled (rule R226). -/
abbrev RotationOk (d : Decoder) : Prop := d.rotIndex = 2 → d.extInfoEnabled = true

/-- A total the length table gives a datagram with the ID of `acc` in some context (rules R183, R186): the context may
have changed since the ID was read (rule R391). -/
abbrev TotalOk (acc : List Bool) (total : Nat) : Prop :=
  total = 4 + expectedBits (rxId acc) .mobile ∨ total = 4 + expectedBits (rxId acc) .stationary ∨
    total = 4 + expectedBits (rxId acc) .unknown

/-- `rx_acc_len` and `rx_total` between two steps (rules R181, R186). -/
abbrev AccumulatorOk (r : Receiver) : Prop :=
  match r.rxState with
  | .idle => r.rxAcc.length = 0 ∨ r.rxAcc.length = 6
  | .reading =>
    r.rxAcc.length % 6 = 0 ∧ 12 ≤ r.rxAcc.length ∧ r.rxAcc.length < r.rxTotal.toNat ∧ TotalOk r.rxAcc r.rxTotal.toNat

/-- The invariant of the engine: the stores are well formed and every register is in its range. -/
abbrev Inv (s : State) : Prop :=
  s.cfg.ok ∧ QueuesOk s.cfg s.dec ∧ CvOk s.cfg s.dec ∧ DsOk s.cfg s.dec ∧ RotationOk s.dec ∧ AccumulatorOk s.rcv

/-- The check byte of a packet is right: the exclusive-or of all its bytes is zero (rules R111, R462). -/
def checkByteOk (pkt : List Byte) : Bool := pkt.foldl (· ^^^ ·) 0 == 0

/-- Operation `first` is presented before any trigger that satisfies `needs` (rule R439). -/
def openedBefore (first : Byte) (needs : Trigger → Bool) : List Trigger → Bool
  | [] => true
  | t :: rest =>
    match t with
    | .host code _ _ => code == first || (!needs t && openedBefore first needs rest)
    | .resetInput => !needs t && openedBefore first needs rest
    | .cutout _ => !needs t && openedBefore first needs rest
    | .dcc _ => !needs t && openedBefore first needs rest
    | .symbol _ => !needs t && openedBefore first needs rest
    | .datagram _ _ => !needs t && openedBefore first needs rest

/-- The trigger starts a flush. -/
def isCutout (t : Trigger) : Bool := triggerClass t == 1

/-- The trigger reads the receive line: `rx_read`, a symbol or a datagram. -/
def isRead (t : Trigger) : Bool :=
  match t with
  | .host code _ _ => code == 0x63
  | .symbol _ => true
  | .datagram _ _ => true
  | .resetInput => false
  | .cutout _ => false
  | .dcc _ => false

/-- The trigger is no packet with a wrong check byte (rules R439, R462). -/
def packetOk (t : Trigger) : Bool :=
  match t with
  | .dcc pkt => checkByteOk pkt
  | .host _ _ _ => true
  | .symbol _ => true
  | .datagram _ _ => true
  | .resetInput => true
  | .cutout _ => true

/-- What the host must do, on the triggers it presents in order (rule R439): `tx_begin` before the first cutout,
`rx_begin` and `rx_set_context` before the first read, no packet with a wrong check byte. -/
def hostContract (triggers : List Trigger) : Bool :=
  openedBefore 0x01 isCutout triggers && openedBefore 0x03 isRead triggers &&
    openedBefore 0x60 isRead triggers && triggers.all packetOk

/-- The channel-1 bytes a flush sends: one entry at most (rule R260). -/
def flushBytes1 (d : Decoder) : Nat := (d.ch1Q.take 1).flatten.length

/-- The channel-2 bytes a flush sends: all entries (rule R260). -/
def flushBytes2 (d : Decoder) : Nat := d.ch2Q.flatten.length

/-- The microseconds from the cutout-start event to the end of a flush begun `elapsedUs` after it, if a byte takes
`byteUs` on the wire. From the spec: the time of channel 1 is part of the wait (rule R261), and there is no wait where
channel 2 is empty (rule R260). DESIGN CHOICE (log entry 24): the spec gives no formula for the end; bytes follow one
another without a gap, channel 1 starts with the operation, and the calls themselves take no time. -/
def flushEndUs (byteUs : Nat) (elapsedUs : Word32) (d : Decoder) : Nat :=
  let ch1 := byteUs * flushBytes1 d
  if d.ch2Q = [] then elapsedUs.toNat + ch1
  else elapsedUs.toNat + max (channelWait elapsedUs) ch1 + byteUs * flushBytes2 d

/-- The flush ends inside the cutout window (rules R263, R464), the window being a parameter (rule R9). Where the
window is left open no flush is known to fit. The end is the model's choice (log entry 24). -/
def FlushFits (cfg : Config) (byteUs : Nat) (elapsedUs : Word32) (d : Decoder) : Prop :=
  ∃ window, cfg.cutoutWindowUs = some window ∧ flushEndUs byteUs elapsedUs d ≤ window

end Sys2Proof.Safety
end

