-- ==== Sys2Proof/Certificates/Slice0/Obligations.lean ====
section
/-! DEFINITION. The statements for the provers, and the vocabulary they are written in: the wire formats symbol by
symbol, the effect of an enqueue, the results of an operation. None of it is written over the encoder of the model. -/

namespace Sys2Proof.Claims

open Sys2Proof.Machine Sys2Proof.Safety

/-- How an operation answers. -/
abbrev Result := Host.Outcome State Fault Refusal

/-! ### Wire formats -/

/-- The transmitted byte of a 6-bit value (rule R101). -/
def sym (cfg : Config) (v : BitVec 6) : Byte := cfg.enc4of8.getD v.toNat 0

/-- Format DG12 (rule R106). -/
def dg12 (cfg : Config) (id : BitVec 4) (p : Byte) : List Byte :=
  [sym cfg (id ++ p.extractLsb' 6 2), sym cfg (p.extractLsb' 0 6)]

/-- Format DG18 (rule R106). -/
def dg18 (cfg : Config) (id : BitVec 4) (p : BitVec 14) : List Byte :=
  [sym cfg (id ++ p.extractLsb' 12 2), sym cfg (p.extractLsb' 6 6), sym cfg (p.extractLsb' 0 6)]

/-- Format DG36 (rule R106). -/
def dg36 (cfg : Config) (id : BitVec 4) (p : Word32) : List Byte :=
  [sym cfg (id ++ p.extractLsb' 30 2), sym cfg (p.extractLsb' 24 6), sym cfg (p.extractLsb' 18 6),
    sym cfg (p.extractLsb' 12 6), sym cfg (p.extractLsb' 6 6), sym cfg (p.extractLsb' 0 6)]

/-- Format DG48, its two symbols of channel 1 (rules R106, R224). -/
def dg48Head (cfg : Config) (id : BitVec 4) (p : BitVec 44) : List Byte :=
  [sym cfg (id ++ p.extractLsb' 42 2), sym cfg (p.extractLsb' 36 6)]

/-- Format DG48, its six symbols of channel 2 (rules R106, R224). -/
def dg48Tail (cfg : Config) (p : BitVec 44) : List Byte :=
  [sym cfg (p.extractLsb' 30 6), sym cfg (p.extractLsb' 24 6), sym cfg (p.extractLsb' 18 6),
    sym cfg (p.extractLsb' 12 6), sym cfg (p.extractLsb' 6 6), sym cfg (p.extractLsb' 0 6)]

/-- The five bytes a DECODER_STATE CRC covers (rule R161). -/
def stateBytes (flags : Byte) (count : BitVec 12) (caps : BitVec 16) : List Byte :=
  [0b1101#4 ++ flags.extractLsb' 4 4, flags.extractLsb' 0 4 ++ count.extractLsb' 8 4, count.extractLsb' 0 8,
    caps.extractLsb' 8 8, caps.extractLsb' 0 8]

/-- The bytes of a data-space response with its length byte and CRC byte as given (rule R108). -/
def responseBytes (lenByte : Byte) (data : List Byte) (crc : Byte) : List Byte := lenByte :: data ++ [crc]

/-- The wire bytes of the data-space response a sender builds (rules R162, R168). -/
def responseWire (cfg : Config) (num : Byte) (data : List Byte) : List Byte :=
  encodeRaw cfg (bitsOfBytes
    (responseBytes (BitVec.ofNat 8 data.length) data (crc8 (BitVec.ofNat 8 data.length :: data) num)))

/-! ### Effects on the decoder half -/

/-- `enqueue(1, e)` (rule R222). -/
def push1 (cfg : Config) (e : List Byte) (d : Decoder) : Decoder :=
  if d.ch1Q.length < cfg.ch1Depth then { d with ch1Q := d.ch1Q ++ [e] } else d

/-- `enqueue(2, e)` (rule R222). -/
def push2 (cfg : Config) (e : List Byte) (d : Decoder) : Decoder :=
  if d.ch2Q.length < cfg.ch2Depth then { d with ch2Q := d.ch2Q ++ [e] } else d

/-- `enqueue_split` of the halves `e1` and `e2` (rule R224). -/
def pushBoth (cfg : Config) (e1 e2 : List Byte) (d : Decoder) : Decoder :=
  if d.ch1Q.length < cfg.ch1Depth ∧ d.ch2Q.length < cfg.ch2Depth then
    { d with ch1Q := d.ch1Q ++ [e1], ch2Q := d.ch2Q ++ [e2] }
  else d

/-- Both queues have room for one more entry. -/
def Room (cfg : Config) (d : Decoder) : Prop := d.ch1Q.length < cfg.ch1Depth ∧ d.ch2Q.length < cfg.ch2Depth

/-- What one rotation step sends (rule R226). -/
def rotationDatagram (cfg : Config) (address : BitVec 14) (long : Bool) (d : Decoder) : List Byte :=
  if d.rotIndex = 0 then dg12 cfg 1 (if long then 0b10#2 ++ address.extractLsb' 8 6 else 0x00#8)
  else if d.rotIndex = 1 then
    dg12 cfg 2 (if long then address.extractLsb' 0 8 else 0b0#1 ++ address.extractLsb' 0 7)
  else dg12 cfg 4 d.extInfo

/-- One call of `sendAddress` (rule R226). -/
def rotate (cfg : Config) (address : BitVec 14) (long : Bool) (d : Decoder) : Decoder :=
  { push1 cfg (rotationDatagram cfg address long d) d with
    rotIndex := Fin.ofNat 3 ((d.rotIndex.val + 1) % (if d.extInfoEnabled then 3 else 2)) }

/-- The default broadcast, where it applies to a command that is no logon command (rule R324). -/
def defaultAnswer (cfg : Config) (d : Decoder) : Decoder :=
  if d.decoderClass = .mobile ∧ d.ch1BroadcastEnabled = true then rotate cfg d.address d.addrLong d else d

/-- The latch cleared (rule R322). -/
def unlatched (d : Decoder) : Decoder := { d with ch1BroadcastEnabled := false }

/-- A Short form packet to `a` addresses this decoder (rule R322). -/
def ownShort (a : BitVec 7) (d : Decoder) : Bool :=
  decide (d.decoderClass = .mobile ∧ d.addrLong = false ∧ d.address.extractLsb' 0 7 = a)

/-- A Long form packet to `a` addresses this decoder (rule R322). -/
def ownLong (a : BitVec 14) (d : Decoder) : Bool :=
  decide (d.decoderClass = .mobile ∧ d.addrLong = true ∧ d.address = a)

/-- An accessory packet to `a` addresses this decoder (rule R322). -/
def ownAccessory (a : BitVec 9) (d : Decoder) : Bool :=
  decide (d.decoderClass = .stationary ∧ d.address.extractLsb' 0 9 = a)

/-- A mobile command in one of the three address forms is directly addressed (rule R322). -/
def ownMobile (form : AddrForm) (a : BitVec 14) (d : Decoder) : Bool :=
  match form with
  | .broadcast => false
  | .short => decide (a.toNat < 128) && ownShort (a.extractLsb' 0 7) d
  | .long => ownLong a d

/-- The command is directly addressed (rule R322). -/
def addressed (cmd : Cmd) (d : Decoder) : Bool :=
  match cmd with
  | .none => false
  | .logonEnable _ _ _ => false
  | .select _ _ _ _ => false
  | .logonAssign _ _ _ _ => false
  | .getDataStart => false
  | .getDataCont => false
  | .setData _ => false
  | .setDataEnd _ => false
  | .pomRead form a _ => ownMobile form a d
  | .pomWrite form a _ _ => ownMobile form a d
  | .pomWriteBit form a _ _ _ => ownMobile form a d
  | .accessory a _ _ => ownAccessory a d
  | .function form a _ _ => ownMobile form a d
  | .extFunction form a _ => ownMobile form a d
  | .dataSpaceRead form a _ _ => ownMobile form a d

/-! ### Results -/

/-- The operation changes the decoder half to `d`, nothing else, and has no output. -/
def decoderBecomes (s : State) (d : Decoder) : Result := .next { s with dec := d, out := {} }

/-- The operation changes the receiver half to `r`, nothing else, and has no output. -/
def receiverBecomes (s : State) (r : Receiver) : Result := .next { s with rcv := r, out := {} }

/-- The packet classifies as `cmd`, the decoder half becomes `d`, nothing else changes (rules R320, R426). -/
def packetGives (s : State) (cmd : Cmd) (triggered : Bool) (d : Decoder) : Result :=
  .next { s with dec := d, out := { cmdOut := some cmd, responseTriggered := some triggered } }

/-- The transport calls of reading `bytes` in one polling round (rule R208). -/
def readCalls (bytes : List Byte) : List Call :=
  .available .rx bytes.length :: bytes.map fun b => .read .rx (some b)

/-- The read delivers `ms`, the receiver half becomes `r`, nothing else changes (rules R207, R426). -/
def readGives (s : State) (r : Receiver) (ms : List Msg) (calls : List Call) : Result :=
  .next { s with rcv := r, out := { messages := some ms, calls := calls } }

/-- A mobile command: its own answer where it is directly addressed, else the default broadcast (rules R320, R324). -/
def mobileGives (s : State) (own : Bool) (cmd : Cmd) (answer : Decoder → Decoder × Bool) : Result :=
  if own then packetGives s cmd (answer (unlatched s.dec)).2 (answer (unlatched s.dec)).1
  else packetGives s cmd false (defaultAnswer s.cfg s.dec)

/-- Every read that polls exactly `bytes` delivers `ms` and leaves the receiver half `r`. -/
def ReadGives (s : State) (bytes : List Byte) (r : Receiver) (ms : List Msg) : Prop :=
  ∀ timeout line, polledBytes (poll timeout line) = bytes →
    exec (.opRxRead timeout line) s = readGives s r ms ((poll timeout line).flatMap pollCalls)

/-- The receiver waits for the first symbol of a datagram. -/
def Waiting (r : Receiver) : Prop := r.rxState = .idle ∧ r.rxAcc = [] ∧ r.rxExpectDs = false

/-- The receiver after a datagram of `total` bits whose message is no ADR_HIGH (rules R186, R199); `rx_total` keeps its
value while Idle (log entry 12). -/
def delivered (r : Receiver) (total : BitVec 6) : Receiver := { r with rxTotal := total, rxAdrHigh := 0 }

/-- The receiver half-way through a datagram of `total` bits of which `bits` have arrived (rule R186). -/
def partway (r : Receiver) (total : BitVec 6) (bits : List Bool) : Receiver :=
  { r with rxState := .reading, rxTotal := total, rxAcc := bits }

/-- The receiver after a data-space read (rules R201, R204). -/
def dataSpaceDone (r : Receiver) : Receiver :=
  { r with rxState := .idle, rxAcc := [], rxAdrHigh := 0, rxExpectDs := false }

/-- The bytes of a datagram or symbol row on the receive line (rules R104 to R108). -/
def lineBytes (cfg : Config) (i : Instr) : Option (List Byte) :=
  match i with
  | .dgPom v => some (dg12 cfg 0 v)
  | .dgAdrHigh v => some (dg12 cfg 1 v)
  | .dgAdrLow v => some (dg12 cfg 2 v)
  | .dgExt t p => some (dg18 cfg 3 (t ++ p))
  | .dgStat4 v => some (dg12 cfg 3 v)
  | .dgDrivingInfo v => some (dg12 cfg 3 v)
  | .dgBasicInfo v => some (dg12 cfg 4 v)
  | .dgStat1 v => some (dg12 cfg 4 v)
  | .dgTime u v => some (dg12 cfg 5 (BitVec.ofBool u ++ v))
  | .dgError v => some (dg12 cfg 6 v)
  | .dgDyn v x => some (dg18 cfg 7 (v ++ x))
  | .dgXpom0 a b c d => some (dg36 cfg 8 (a ++ b ++ c ++ d))
  | .dgXpom1 a b c d => some (dg36 cfg 9 (a ++ b ++ c ++ d))
  | .dgXpom2 a b c d => some (dg36 cfg 10 (a ++ b ++ c ++ d))
  | .dgXpom3 a b c d => some (dg36 cfg 11 (a ++ b ++ c ++ d))
  | .dgStat2 v => some (dg12 cfg 8 v)
  | .dgCvAuto cv v => some (dg36 cfg 12 (cv ++ v))
  | .dgBlock v => some (dg36 cfg 13 v)
  | .dgDecoderState f n c crc => some (dg48Head cfg 13 (f ++ n ++ c ++ crc) ++ dg48Tail cfg (f ++ n ++ c ++ crc))
  | .dgRerail v => some (dg12 cfg 14 v)
  | .dgDecoderUnique m p => some (dg48Head cfg 15 (m ++ p) ++ dg48Tail cfg (m ++ p))
  | .dgSrq e a => some [sym cfg (BitVec.ofBool e ++ a.extractLsb' 6 5), sym cfg (a.extractLsb' 0 6)]
  | .dgDataSpace data crc => some (encodeRaw cfg (bitsOfBytes (responseBytes (BitVec.ofNat 8 data.length) data crc)))
  | .symAck1 => some [0xF0]
  | .symAck2 => some [0x0F]
  | .symNack => some [0x3C]
  | .symData v => some [sym cfg v]
  | _ => none

/-- A datagram or symbol row run from `s` is one read of exactly its bytes, which leaves the receiver half `r` and
delivers `ms`. -/
def LineGives (s : State) (i : Instr) (r : Receiver) (ms : List Msg) : Prop :=
  ∃ bytes, lineBytes s.cfg i = some bytes ∧ exec i s = readGives s r ms (readCalls bytes)

/-- The instructions run one after the other, each to completion (rule R413). -/
def runAll : List Instr → State → Result
  | [], s => .next s
  | i :: rest, s =>
    match exec i s with
    | .next t => runAll rest t
    | .fault f => .fault f
    | .refused r => .refused r

/-- The operation code under which the host port presents an instruction (rule R120). -/
def hostCode (cfg : Config) (i : Instr) : Option Byte :=
  match encode cfg i with
  | .host code _ _ => some code
  | .resetInput => none
  | .cutout _ => none
  | .dcc _ => none
  | .symbol _ => none
  | .datagram _ _ => none

/-- A host operation of code `code` whose whole effect is `f` on the decoder half. -/
def HostOpIs (code : Byte) (i : Instr) (f : Config → Decoder → Decoder) : Prop :=
  (∀ cfg, hostCode cfg i = some code) ∧ ∀ s, exec i s = decoderBecomes s (f s.cfg s.dec)

/-- The codes rule R120 lists. -/
def listedCodes : List Byte :=
  [0x00, 0x01, 0x02, 0x03, 0x04, 0x05, 0x06, 0x10, 0x11, 0x12, 0x13, 0x14, 0x15, 0x16, 0x17, 0x18, 0x19, 0x1A, 0x1B,
    0x1C, 0x1D, 0x1E, 0x1F, 0x20, 0x21, 0x22, 0x40, 0x41, 0x42, 0x43, 0x44, 0x45, 0x46, 0x47, 0x48, 0x49, 0x4A, 0x4B,
    0x60, 0x61, 0x62, 0x63]

/-- What one engine enqueues, another that waits in the right context delivers with the same fields: `i` run by `d` with
room in its queues, its entries read whole by `s`. -/
def Crosses (i : Instr) (d s : State) (m : Msg) : Prop :=
  ∃ t e1 e2, exec i d = .next t ∧ t.dec.ch1Q = d.dec.ch1Q ++ e1 ∧ t.dec.ch2Q = d.dec.ch2Q ++ e2 ∧
    ∃ r, ReadGives s (e1 ++ e2).flatten r [m]

/-- The logon state after an operation, by the table of rule R350. -/
def logonAfter (d : Decoder) (cmd : Option Cmd) : LogonState :=
  match cmd with
  | some (.logonEnable _ _ _) =>
    if d.logonState = .idle then (if d.backoffCounter = 0 then .inSingulation else .waitingForLogon)
    else if d.logonState = .waitingForLogon ∧ d.backoffCounter = 0 then .inSingulation
    else d.logonState
  | some (.select mfg uid _ _) =>
    if mfg = d.mfgId ∧ uid = d.productId ∧ logonCode d.logonState < 3 then .announced else d.logonState
  | some (.logonAssign mfg uid _ _) => if mfg = d.mfgId ∧ uid = d.productId then .registered else d.logonState
  | _ => d.logonState

end Sys2Proof.Claims

open Sys2Proof Sys2Proof.Machine Sys2Proof.Safety Sys2Proof.Claims

/-! ### Decoding, encoding, stepping -/

/-- Words written out from rules R113 to R118, R120, R100 and R104 decode to their instructions. The symbols are those
of the default table, which is general knowledge (rule R101; log entry 5). That the argument bytes 03 E8 01 of host
operation 0x11 are address 1000 and `long` 1 is the model's choice: rule R120 gives the widths, not the packing (log
entry 6). -/
def Obligations.DecodeReadsSpecWords : Prop :=
  decodeDcc Config.default [0xFE, 0xFC, 0x12, 0x34, 0x56, 0x72] = .dccLogonEnable 0 0x1234 0x56 0x72 ∧
  decodeDcc Config.default [0xFE, 0xE0, 0xA5, 0x12, 0x34, 0x56, 0x78, 0x03, 0xE8, 0x58] =
    .dccLogonAssign 0x0A5 0x12345678 0 1000 [] 0x58 ∧
  decodeDcc Config.default [0xC3, 0xE8, 0xE4, 0x00, 0x00, 0xCF] = .dccPomReadLong 1000 0 0x00 0xCF ∧
  decodeDcc Config.default [0x85, 0xFA, 0x7F] = .dccAccessory 5 0b111 true 2 0x7F ∧
  decodeDcc Config.default [0x03, 0xDF, 0x05, 0x00, 0xD9] = .dccDataSpaceReadShort 3 5 0 0xD9 ∧
  decodeDcc Config.default [0xFF, 0x00, 0xFF] = .trigDccPacket [0xFF, 0x00, 0xFF] ∧
  decodeHost 0x11 [0x03, 0xE8, 0x01] [] = .ok (.opSendAddress 1000 true) ∧
  decodeSymbol Config.default 0x4D = .symData 34 ∧
  decodeDatagram Config.default .pom [0xAC, 0x4D] = .dgPom 0x22

/-- Where the trigger taken next decodes to `i`, the step is `exec i` with that trigger gone from the port. -/
def Obligations.StepRunsDecodedInstruction : Prop :=
  ∀ s t waiting i, takeTrigger s.port = some (t, waiting) → decode s.cfg t = .ok i →
    step s = exec i { s with port := waiting }

/-- With nothing at the ports a step changes nothing (rule R430); a host code rule R120 does not list changes nothing
but the port that held it (rule R381). The idle step is the model's choice (log entry 2). -/
def Obligations.IdleAndUnlistedCodesChangeNothing : Prop :=
  (∀ s, s.port = [] → step s = .next s) ∧
  ∀ s code args line waiting, takeTrigger s.port = some (.host code args line, waiting) → code ∉ listedCodes →
    step s = .next { s with port := waiting, out := {} }

/-- The trigger taken next precedes all that wait in the order of rule R425: reset, cutout, packet, all else. Equals
are taken in the order presented, and no other trigger is lost. That host operation 0x00 counts as `reset` is the
model's reading (rule R420; log entry 3); the order among equals that are no host operations, and the class of symbols
and datagrams, are the model's choice (log entry 23). -/
def Obligations.TriggersAreTakenInOrder : Prop :=
  (triggerClass .resetInput = 0 ∧ (∀ args line, triggerClass (.host 0x00 args line) = 0) ∧
    (∀ elapsed, triggerClass (.cutout elapsed) = 1) ∧ (∀ pkt, triggerClass (.dcc pkt) = 2) ∧
    (∀ code args line, code ≠ 0x00 → triggerClass (.host code args line) = 3) ∧
    (∀ b, triggerClass (.symbol b) = 3) ∧ ∀ k bytes, triggerClass (.datagram k bytes) = 3) ∧
  (∀ port, takeTrigger port = none ↔ port = []) ∧
  ∀ port t waiting, takeTrigger port = some (t, waiting) →
    ∃ before later, port = before ++ t :: later ∧ waiting = before ++ later ∧
      (∀ u ∈ before, triggerClass t < triggerClass u) ∧ ∀ u ∈ later, triggerClass t ≤ triggerClass u

/-- Every operation completes and leaves a state, and so does every step (rule R410). -/
def Obligations.EveryOperationCompletes : Prop :=
  (∀ i s, ∃ t, exec i s = .next t) ∧ ∀ s, ∃ t, step s = .next t

/-- A well-formed instruction's trigger decodes to it, every operand at every value its encoding admits. The raw-packet
row stands for the packets that are no `DCC.` row (rule R297). -/
def Obligations.DecodeInvertsEncode : Prop :=
  ∀ cfg i, cfg.ok → i.wf = true → (∀ pkt, i = .trigDccPacket pkt → classify cfg pkt = .none) →
    decode cfg (encode cfg i) = .ok i

/-- No bit of a DCC packet is lost by decoding. -/
def Obligations.EncodeInvertsPacketDecode : Prop :=
  ∀ cfg pkt, encode cfg (decodeDcc cfg pkt) = .dcc pkt

/-- The instruction a packet decodes to does what rule R320 does with the packet's raw bytes: the rows of rules R113
to R118 and the patterns of rule R280 agree on every packet. The layouts are the spec's decisions D18 to D25. -/
def Obligations.PacketRowsAgreeWithParser : Prop :=
  ∀ s pkt, exec (decodeDcc s.cfg pkt) s = exec (.trigDccPacket pkt) s

/-- A packet that classifies as none changes no state and answers nothing, and the packets rules R282 and R297 name as
unmatched classify so. -/
def Obligations.UnmatchedPacketsChangeNothing : Prop :=
  (∀ s pkt, classify s.cfg pkt = .none → exec (.trigDccPacket pkt) s = packetGives s .none false s.dec) ∧
  (∀ cfg pkt, pkt.length < 3 ∨ 12 < pkt.length → classify cfg pkt = .none) ∧
  (∀ cfg : Config, cfg.ok → classify cfg [0xFF, 0x00, 0xFF] = .none ∧ classify cfg [0x00, 0x00, 0x00] = .none ∧
    classify cfg [0x03, 0x3F, 0x80, 0xBC] = .none ∧ classify cfg [0xFE, 0xFC, 0x12, 0x34, 0x56] = .none) ∧
  classify Config.default [0x03, 0xE0, 0x07, 0x00, 0xE4] = .none

/-- The check byte of a packet has no influence on what the packet does (rules R282, R462). That the byte is unchecked
is the spec's decision D18. -/
def Obligations.CheckByteIsNotRead : Prop :=
  ∀ s body e f, exec (.trigDccPacket (body ++ [e])) s = exec (.trigDccPacket (body ++ [f])) s

/-! ### The codec -/

/-- The four laws of the symbol code (rule R153). -/
def Obligations.SymbolCodeLaws : Prop :=
  ∀ cfg : Config, cfg.encOk →
    (∀ v : BitVec 6, decode4of8 cfg (encode4of8 cfg v.toNat) = .data v) ∧
    (∀ b, weight b ≠ 4 → decode4of8 cfg b = .invalid) ∧
    (∀ b, decode4of8 cfg b = .invalid ↔ b ≠ 0xF0 ∧ b ≠ 0x0F ∧ b ≠ 0x3C ∧ b ∉ cfg.enc4of8) ∧
    ∀ b v, decode4of8 cfg b = .data v → encode4of8 cfg v.toNat = b

/-- Of the 256 bytes 70 have weight 4, 3 of these are unassigned and read as invalid, as do the 186 others; with the
default table the three are 0x87, 0xC3 and 0xE1 (rule R102). The counts are the spec's own derivation (rule R102). -/
def Obligations.UnassignedSymbols : Prop :=
  (∀ cfg : Config, cfg.encOk →
    (List.range 256).countP (fun n => weight (BitVec.ofNat 8 n) == 4) = 70 ∧
    (List.range 256).countP (fun n => weight (BitVec.ofNat 8 n) == 4 &&
      decode4of8 cfg (BitVec.ofNat 8 n) == .invalid) = 3 ∧
    (List.range 256).countP (fun n => weight (BitVec.ofNat 8 n) != 4 &&
      decode4of8 cfg (BitVec.ofNat 8 n) == .invalid) = 186) ∧
  (List.range 256).filter (fun n => weight (BitVec.ofNat 8 n) == 4 &&
    decode4of8 Config.default (BitVec.ofNat 8 n) == .invalid) = [0x87, 0xC3, 0xE1]

/-- The laws of the CRC: appending it leaves residue 0, a changed bit of the data changes it, and the start value of
an empty string is its result (rule R160). The algorithm is the spec's decision D2. -/
def Obligations.CrcLaws : Prop :=
  (∀ d init, crc8 (d ++ [crc8 d init]) init = 0) ∧
  (∀ d init i (h : i < d.length) k, k < 8 → crc8 (d.set i (d[i] ^^^ (1#8 <<< k))) init ≠ crc8 d init) ∧
  (∀ init, crc8 [] init = init) ∧
  crc8 [0x31, 0x32, 0x33, 0x34, 0x35, 0x36, 0x37, 0x38, 0x39] 0 = 0xA1

/-- The four ID-headed formats symbol by symbol (rule R106). -/
def Obligations.DatagramBitLayout : Prop :=
  (∀ cfg id (p : Byte), encodeDatagram cfg id p.toNat 8 = dg12 cfg id p) ∧
  (∀ cfg id (p : BitVec 14), encodeDatagram cfg id p.toNat 14 = dg18 cfg id p) ∧
  (∀ cfg id (p : Word32), encodeDatagram cfg id p.toNat 32 = dg36 cfg id p) ∧
  ∀ cfg id (p : BitVec 44), encodeDatagram cfg id p.toNat 44 = dg48Head cfg id p ++ dg48Tail cfg p

/-- Packing pads with zero bits to a multiple of 6 and codes each 6 bits; unpacking gives the padded string back (rules
R165, R169). -/
def Obligations.UnpackInvertsEncodeRaw : Prop :=
  ∀ cfg bits, cfg.encOk →
    ∃ symbols, dataSymbols cfg (encodeRaw cfg bits) = some symbols ∧
      unpack symbols = bits ++ List.replicate ((6 - bits.length % 6) % 6) false

/-! ### Sending -/

/-- The sends of an 8-bit payload, each on its channel; none touches the rotation (rules R230, R233 to R235, R237, R244,
R245). -/
def Obligations.SendsOfOneByte : Prop :=
  (∀ value, HostOpIs 0x10 (.opSendPom value) fun cfg => push2 cfg (dg12 cfg 0 value)) ∧
  (∀ status, HostOpIs 0x14 (.opSendStatus1 status) fun cfg => push2 cfg (dg12 cfg 4 status)) ∧
  (∀ status, HostOpIs 0x15 (.opSendStatus2 status) fun cfg => push2 cfg (dg12 cfg 8 status)) ∧
  (∀ status, HostOpIs 0x16 (.opSendStatus4 status) fun cfg => push2 cfg (dg12 cfg 3 status)) ∧
  (∀ code, HostOpIs 0x18 (.opSendError code) fun cfg => push2 cfg (dg12 cfg 6 code)) ∧
  (∀ info, HostOpIs 0x1F (.opSendDrivingInfo info) fun cfg => push1 cfg (dg12 cfg 3 info)) ∧
  ∀ info, HostOpIs 0x20 (.opSendBasicInfo info) fun cfg => push1 cfg (dg12 cfg 4 info)

/-- The sends of a wider payload on channel 2 (rules R231, R238, R243, R246). -/
def Obligations.SendsOfWidePayloads : Prop :=
  (∀ value subindex, HostOpIs 0x12 (.opSendDynamic value subindex) fun cfg =>
    push2 cfg (dg18 cfg 7 (value ++ subindex))) ∧
  (∀ cv value, HostOpIs 0x19 (.opSendCvAuto cv value) fun cfg => push2 cfg (dg36 cfg 12 (cv ++ value))) ∧
  (∀ type position, HostOpIs 0x1E (.opSendExt type position) fun cfg =>
    push2 cfg (dg18 cfg 3 (type ++ position))) ∧
  ∀ data, HostOpIs 0x21 (.opSendBlock data) fun cfg => push2 cfg (dg36 cfg 13 data)

/-- The range-checked sends: outside the range nothing is enqueued (rules R232, R236, R241, R242). The layout of TIME
is the spec's decision D4. -/
def Obligations.RangeCheckedSends : Prop :=
  (∀ value unit, HostOpIs 0x17 (.opSendTime value unit) fun cfg d =>
    if value.toNat ≤ 127 then push2 cfg (dg12 cfg 5 (BitVec.ofBool unit ++ value.extractLsb' 0 7)) d else d) ∧
  (∀ seq d0 d1 d2 d3, HostOpIs 0x13 (.opSendXpom seq d0 d1 d2 d3) fun cfg d =>
    if seq.toNat ≤ 3 then push2 cfg (dg36 cfg (8#4 + seq.setWidth 4) (d0 ++ d1 ++ d2 ++ d3)) d else d) ∧
  (∀ seconds, HostOpIs 0x1C (.opSendRerail seconds) fun cfg d =>
    if seconds.toNat ≤ 255 then push2 cfg (dg12 cfg 14 (seconds.extractLsb' 0 8)) d else d) ∧
  ∀ address ext, HostOpIs 0x1D (.opSendServiceRequest address ext) fun cfg d =>
    if address.toNat ≤ 2047 then
      push1 cfg [sym cfg (BitVec.ofBool ext ++ address.extractLsb' 6 5), sym cfg (address.extractLsb' 0 6)] d
    else d

/-- The two 48-bit sends, split over the channels, all or nothing (rules R239, R240). All or nothing, and the split of
DECODER_STATE, are the spec's decisions D5 and D16. -/
def Obligations.SplitSends : Prop :=
  (∀ mfg product, HostOpIs 0x1A (.opSendDecoderUnique mfg product) fun cfg =>
    pushBoth cfg (dg48Head cfg 15 (mfg ++ product)) (dg48Tail cfg (mfg ++ product))) ∧
  ∀ flags count caps, HostOpIs 0x1B (.opSendDecoderState flags count caps) fun cfg =>
    let p : BitVec 44 := flags ++ count ++ caps ++ crc8 (stateBytes flags count caps) 0
    pushBoth cfg (dg48Head cfg 13 p) (dg48Tail cfg p)

/-- The data-space send: at most 16 bytes, two symbols on channel 1 and the rest on channel 2 (rule R247). The split
is the spec's decision D5. -/
def Obligations.DataSpaceSend : Prop :=
  (∀ num data, HostOpIs 0x22 (.opSendDataSpace num data) fun cfg d =>
    if data.length ≤ 16 then
      pushBoth cfg ((responseWire cfg num data).take 2) ((responseWire cfg num data).drop 2) d
    else d) ∧
  ∀ cfg num data, (responseWire cfg num data).length = (8 * (data.length + 2) + 5) / 6

/-- One call of `sendAddress` enqueues the datagram of the current step and advances the rotation, whether or not
there was room (rule R226). The payloads and the advance are the spec's decisions D13 and D14. -/
def Obligations.SendAddressRotates : Prop :=
  ∀ address long, HostOpIs 0x11 (.opSendAddress address long) fun cfg => rotate cfg address long

/-- Successive calls of `sendAddress` cycle through the steps in order, three with the optional step and two without;
disabling and enabling the step starts again (rule R227). The payloads and the advance are the spec's decisions D13
and D14 (rule R226). -/
def Obligations.RotationLaw : Prop :=
  (∀ s address long n, s.dec.rotIndex = 0 → s.dec.ch1Q.length + n ≤ s.cfg.ch1Depth →
    ∃ t, runAll (List.replicate n (.opSendAddress address long)) s = .next t ∧
      t.dec.rotIndex.val = n % (if s.dec.extInfoEnabled then 3 else 2) ∧
      t.dec.ch1Q = s.dec.ch1Q ++ (List.range n).map fun i =>
        rotationDatagram s.cfg address long
          { s.dec with rotIndex := Fin.ofNat 3 (i % (if s.dec.extInfoEnabled then 3 else 2)) }) ∧
  ∀ s, ∃ t, runAll [.opSetExtInfoEnabled false, .opSetExtInfoEnabled true] s = .next t ∧ t.dec.rotIndex = 0

/-- A cutout sends the head of channel 1, waits out what is left of 193 microseconds, sends all of channel 2 in order,
and makes no call where both queues are empty (rules R260 to R262). The `waitUntil` mark in the list of calls is the
model's way to show the wait (log entry 8). The empty cases and the baud rates are the spec's decision D17. -/
def Obligations.CutoutFlushesTheQueues : Prop :=
  ∀ s (elapsed : Word32),
    let wait := if elapsed.toNat < 193 then 193 - elapsed.toNat else 0
    let rest := { s.dec with ch1Q := s.dec.ch1Q.tail, ch2Q := [] }
    let first := match s.dec.ch1Q with | [] => [] | e :: _ => [Call.write .tx e]
    let second := match s.dec.ch2Q with | [] => [] | e :: es => .waitUntil wait :: (e :: es).map (Call.write .tx)
    let calls := [.setBaudrate .tx 250000] ++ first ++ second ++ [.waitForTransmitComplete .tx, .setBaudrate .tx 115200]
    exec (.trigCutoutStart elapsed) s =
      .next { s with
        dec := rest
        out := { calls := if s.dec.ch1Q = [] ∧ s.dec.ch2Q = [] then [] else calls } }

/-- Queued entries are never re-encoded, reordered or overtaken: only a cutout or a reset takes an entry
away, and every other operation keeps what is queued in its place (rules R85, R87). Rule R87 is the spec's decision
D49. -/
def Obligations.QueuedEntriesKeepTheirPlace : Prop :=
  ∀ i s t, exec i s = .next t → i ≠ .opReset → (∀ elapsed, i ≠ .trigCutoutStart elapsed) →
    s.dec.ch1Q <+: t.dec.ch1Q ∧ s.dec.ch2Q <+: t.dec.ch2Q

/-- Every byte handed to the transport is a data symbol of weight 4 (rule R154). -/
def Obligations.TransmittedBytesHaveWeightFour : Prop :=
  ∀ i s t, Safety.Inv s → exec i s = .next t → ∀ h bytes, Call.write h bytes ∈ t.out.calls →
    ∀ b ∈ bytes, weight b = 4 ∧ ∃ v : BitVec 6, b = encode4of8 s.cfg v.toNat

/-! ### Host operations -/

/-- The transport life cycle makes its calls and changes no register (rules R395 to R398). -/
def Obligations.TransportLifeCycle : Prop :=
  ∀ s,
    exec .opTxBegin s = .next { s with out := { calls := [.beginPort .tx, .setBaudrate .tx 115200] } } ∧
    exec .opTxEnd s = .next { s with out := { calls := [.endPort .tx] } } ∧
    exec .opRxBegin s = .next { s with out := { calls := [.beginPort .rx, .setBaudrate .rx 250000] } } ∧
    exec .opRxEnd s = .next { s with out := { calls := [.endPort .rx] } }

/-- The configuration operations write their registers and nothing else (rules R382 to R384, R386, R388, R389, R392 to
R394, R399, R400). `set_class` is the spec's decision D33, `set_ext_position` D34, `second_tick` D37. -/
def Obligations.ConfigurationWrites : Prop :=
  (∀ address long, HostOpIs 0x40 (.opSetAddress address long) fun _ d =>
    { d with address := address, addrLong := long }) ∧
  (∀ mfg product, HostOpIs 0x41 (.opSetIdentity mfg product) fun _ d => { d with mfgId := mfg, productId := product }) ∧
  (∀ cls kind, HostOpIs 0x42 (.opSetClass cls kind) fun _ d => { d with decoderClass := cls, statusKind := kind }) ∧
  (∀ en, HostOpIs 0x43 (.opSetExtInfoEnabled en) fun _ d =>
    { d with extInfoEnabled := en, rotIndex := if en = false then 0 else d.rotIndex }) ∧
  (∀ info, HostOpIs 0x44 (.opSetExtInfo info) fun _ d => { d with extInfo := info }) ∧
  (∀ type position, HostOpIs 0x45 (.opSetExtPosition type position) fun _ d =>
    { d with extType := type, extPosition := position }) ∧
  (∀ flags count caps, HostOpIs 0x46 (.opSetDecoderStateFields flags count caps) fun _ d =>
    { d with dsFlags := flags, dsCount := count, dsCaps := caps }) ∧
  HostOpIs 0x48 .opCvClear (fun _ d => { d with cv := [], cvCursor := 0 }) ∧
  HostOpIs 0x4A .opDsClear (fun _ d => { d with ds := [] }) ∧
  HostOpIs 0x4B .opLogonReset (fun _ d => { d with logonState := .idle }) ∧
  HostOpIs 0x06 .opSecondTick fun _ d =>
    { d with uptimeS := if d.uptimeS = 0xFFFFFFFF then 0xFFFFFFFF else d.uptimeS + 1 }

/-- `cv_set`: a key in the map gets the value and keeps its place, a new key goes to the end while there is room,
other keys keep their values, and a full map ignores a new key (rule R385). The rule is the spec's decision D44. -/
def Obligations.CvSetWritesOneEntry : Prop :=
  (∀ cfg key value, hostCode cfg (.opCvSet key value) = some 0x47) ∧
  ∀ s key value, ∃ m, exec (.opCvSet key value) s = decoderBecomes s { s.dec with cv := m } ∧
    (key ∈ s.dec.cv.map (·.1) → m.map (·.1) = s.dec.cv.map (·.1) ∧ m.lookup key = some value) ∧
    (key ∉ s.dec.cv.map (·.1) → s.dec.cv.length < s.cfg.cvCapacity → m = s.dec.cv ++ [(key, value)]) ∧
    (key ∉ s.dec.cv.map (·.1) → s.cfg.cvCapacity ≤ s.dec.cv.length → m = s.dec.cv) ∧
    ∀ k, k ≠ key → m.lookup k = s.dec.cv.lookup k

/-- `ds_set`: too long a record is ignored; else a number in the store gets the record in its place, a new number goes to
the end while there is room, other numbers keep theirs (rule R387). -/
def Obligations.DsSetWritesOneRecord : Prop :=
  (∀ cfg num bytes, hostCode cfg (.opDsSet num bytes) = some 0x49) ∧
  ∀ s num bytes, ∃ m, exec (.opDsSet num bytes) s = decoderBecomes s { s.dec with ds := m } ∧
    (s.cfg.dsMaxLen < bytes.length → m = s.dec.ds) ∧
    (bytes.length ≤ s.cfg.dsMaxLen →
      (num ∈ s.dec.ds.map (·.num) → m.map (·.num) = s.dec.ds.map (·.num) ∧
        m.find? (·.num == num) = some { num := num, bytes := bytes }) ∧
      (num ∉ s.dec.ds.map (·.num) → s.dec.ds.length < s.cfg.dsCapacity →
        m = s.dec.ds ++ [{ num := num, bytes := bytes }]) ∧
      (num ∉ s.dec.ds.map (·.num) → s.cfg.dsCapacity ≤ s.dec.ds.length → m = s.dec.ds)) ∧
    ∀ n, n ≠ num → m.find? (·.num == n) = s.dec.ds.find? (·.num == n)

/-- The receiver controls write their registers and nothing else (rules R206, R390, R391). Code 3 and the cache
timeout are the spec's decisions D41 and D9. -/
def Obligations.ReceiverControls : Prop :=
  (∀ cfg ctx, hostCode cfg (.opRxSetContext ctx) = some 0x60) ∧
  (∀ cfg num, hostCode cfg (.opRxExpectDataSpace num) = some 0x61) ∧
  (∀ cfg, hostCode cfg .opRxCacheTimeout = some 0x62) ∧
  ∀ s,
    exec (.opRxSetContext 0) s = receiverBecomes s { s.rcv with rxContext := .unknown } ∧
    exec (.opRxSetContext 1) s = receiverBecomes s { s.rcv with rxContext := .mobile } ∧
    exec (.opRxSetContext 2) s = receiverBecomes s { s.rcv with rxContext := .stationary } ∧
    exec (.opRxSetContext 3) s = receiverBecomes s { s.rcv with rxContext := .unknown } ∧
    (∀ num, exec (.opRxExpectDataSpace num) s =
      receiverBecomes s { s.rcv with rxExpectDs := true, rxExpectDsNum := num }) ∧
    exec .opRxCacheTimeout s = receiverBecomes s { s.rcv with rxAdrHigh := 0 }

/-- `reset` puts every register and store at the value of rule R52, makes no transport call, and leaves the parameters
alone (rule R452); the waiting triggers stay at the port (rule R425; the model's reading, log entry 3). Most values
are the spec's decision D38. -/
def Obligations.ResetSetsEveryRegister : Prop :=
  ∀ s, ∃ d r, exec .opReset s = .next { s with dec := d, rcv := r, out := {} } ∧
    (d.address = 3 ∧ d.addrLong = false ∧ d.mfgId = 0 ∧ d.productId = 0 ∧ d.decoderClass = .mobile ∧
      d.statusKind = .stat1 ∧ d.extInfoEnabled = false ∧ d.extInfo = 0 ∧ d.extType = 0 ∧ d.extPosition = 0 ∧
      d.dsFlags = 0 ∧ d.dsCount = 0 ∧ d.dsCaps = 0) ∧
    (d.logonState = .idle ∧ d.backoffCounter = 0 ∧ d.backoffValue = 1 ∧ d.ch1BroadcastEnabled = true ∧
      d.accessoryMask = 0 ∧ d.cvAutoActive = false ∧ d.cvCursor = 0 ∧ d.rotIndex = 0 ∧ d.uptimeS = 0 ∧ d.ch1Q = [] ∧
      d.ch2Q = [] ∧ d.cv = [] ∧ d.ds = []) ∧
    (r.rxContext = .unknown ∧ r.rxState = .idle ∧ r.rxAcc = [] ∧ r.rxTotal = 0 ∧ r.rxAdrHigh = 0 ∧
      r.rxExpectDs = false ∧ r.rxExpectDsNum = 0)

/-! ### Receiving -/

/-- A read of one 12-bit datagram delivers its message (rules R188, R193 to R195) and clears the cache (rule R199). That
`rx_total` stays while Idle is the model's choice (log entry 12). -/
def Obligations.ReadDeliversShortDatagrams : Prop :=
  ∀ s, s.cfg.encOk → Waiting s.rcv → ∀ p : Byte,
    ReadGives s (dg12 s.cfg 0 p) (delivered s.rcv 12) [.pom p] ∧
    (s.rcv.rxContext ≠ .mobile →
      ReadGives s (dg12 s.cfg 3 p) (delivered s.rcv 12) [.stat4 p] ∧
      ReadGives s (dg12 s.cfg 4 p) (delivered s.rcv 12) [.stat1 p] ∧
      ReadGives s (dg12 s.cfg 5 p) (delivered s.rcv 12) [.time (p.getLsbD 7) (p.extractLsb' 0 7)] ∧
      ReadGives s (dg12 s.cfg 6 p) (delivered s.rcv 12) [.error p]) ∧
    (s.rcv.rxContext = .mobile →
      ReadGives s (dg12 s.cfg 4 p) (delivered s.rcv 12) [.basicInfo p] ∧
      ReadGives s (dg12 s.cfg 5 p) s.rcv [] ∧
      ReadGives s (dg12 s.cfg 6 p) s.rcv [])

/-- A read of one wider datagram, or of a RERAIL, delivers its message (rules R192, R196 to R198) and clears the cache
(rule R199). The validity flag of DECODER_STATE is the spec's decision D30; that `rx_total` stays while Idle is the
model's choice (log entry 12). -/
def Obligations.ReadDeliversLongDatagrams : Prop :=
  ∀ s, s.cfg.encOk → Waiting s.rcv →
    (s.rcv.rxContext = .mobile → ∀ p : BitVec 14,
      ReadGives s (dg18 s.cfg 3 p) (delivered s.rcv 18) [.ext (p.extractLsb' 8 6) (p.extractLsb' 0 8)]) ∧
    (∀ p : BitVec 14,
      ReadGives s (dg18 s.cfg 7 p) (delivered s.rcv 18) [.dyn (p.extractLsb' 6 8) (p.extractLsb' 0 6)]) ∧
    (∀ (n : BitVec 2) (p : Word32), ReadGives s (dg36 s.cfg (8#4 + n.setWidth 4) p) (delivered s.rcv 36)
      [.xpom n (p.extractLsb' 24 8) (p.extractLsb' 16 8) (p.extractLsb' 8 8) (p.extractLsb' 0 8)]) ∧
    (∀ p : Word32,
      ReadGives s (dg36 s.cfg 12 p) (delivered s.rcv 36) [.cvAuto (p.extractLsb' 8 24) (p.extractLsb' 0 8)]) ∧
    (∀ p : Byte, ReadGives s (dg12 s.cfg 14 p) (delivered s.rcv 12) [.rerail p]) ∧
    (∀ p : BitVec 44, ReadGives s (dg48Head s.cfg 15 p ++ dg48Tail s.cfg p) (delivered s.rcv 48)
      [.decoderUnique (p.extractLsb' 32 12) (p.extractLsb' 0 32)]) ∧
    ∀ flags (count : BitVec 12) (caps : BitVec 16) (crc : Byte),
      ReadGives s (dg48Head s.cfg 13 (flags ++ count ++ caps ++ crc) ++ dg48Tail s.cfg (flags ++ count ++ caps ++ crc))
        (delivered s.rcv 48)
        [.decoderState flags count caps crc (decide (crc8 (stateBytes flags count caps) 0 = crc))]

/-- The two halves of an address: the high half is cached, the low half is paired with a cached high half and consumes
it, and without one stands for itself (rules R190, R191). The pairing formula is the spec's decision D9; that `rx_total`
stays while Idle is the model's choice (log entry 12). -/
def Obligations.AddressHalvesPair : Prop :=
  ∀ s, s.cfg.encOk → Waiting s.rcv →
    (∀ p : Byte, ReadGives s (dg12 s.cfg 1 p) { s.rcv with rxTotal := 12, rxAdrHigh := p } [.adrHigh p]) ∧
    (s.rcv.rxAdrHigh = 0 → ∀ p : Byte,
      ReadGives s (dg12 s.cfg 2 p) (delivered s.rcv 12) [.adrLow p (p.setWidth 14) false]) ∧
    (s.rcv.rxAdrHigh ≠ 0 → ∀ p : Byte, ReadGives s (dg12 s.cfg 2 p) (delivered s.rcv 12)
      [.adrLow p (s.rcv.rxAdrHigh.extractLsb' 0 6 ++ p) true]) ∧
    ∀ a : BitVec 14,
      ReadGives s (dg12 s.cfg 1 (0b10#2 ++ a.extractLsb' 8 6) ++ dg12 s.cfg 2 (a.extractLsb' 0 8)) (delivered s.rcv 12)
        [.adrHigh (0b10#2 ++ a.extractLsb' 8 6), .adrLow (a.extractLsb' 0 8) a true]

/-- A byte that completes no message leaves the cached high half alone, ADR_HIGH stores it, every other message clears
it (rule R199). What dropped input does is the spec's decision D9. -/
def Obligations.MessagesInvalidateTheCache : Prop :=
  ∀ cfg b r,
    match (rxStep cfg b r).2 with
    | none => (rxStep cfg b r).1.rxAdrHigh = r.rxAdrHigh
    | some (.adrHigh raw) => (rxStep cfg b r).1.rxAdrHigh = raw
    | some _ => (rxStep cfg b r).1.rxAdrHigh = 0

/-- A byte that is no data symbol, be it invalid, ACK or NACK, empties the accumulator, delivers nothing and leaves
the cache, and the bytes after it are read as from an empty receiver (rules R182, R209). ACK and NACK as invalid bytes
are the spec's decision D7. -/
def Obligations.NonDataBytesResynchronise : Prop :=
  ∀ s before b after, s.rcv.rxExpectDs = false → (∀ v, decode4of8 s.cfg b ≠ .data v) →
    ∀ timeout line, polledBytes (poll timeout line) = before ++ b :: after →
      let first := rxSteps s.cfg before s.rcv
      let later := rxSteps s.cfg after { first.1 with rxState := .idle, rxAcc := [] }
      exec (.opRxRead timeout line) s =
        readGives s later.1 (first.2 ++ later.2) ((poll timeout line).flatMap pollCalls)

/-- The datagram and symbol rows: in every state each is the read of exactly its bytes (the model's choice, log entry
1), and this is what it leaves: from a waiting receiver in every context, from a receiver that holds bits, and from one
that expects a data-space response. A kind the receiver cannot tell is read as its bits say (rules R195, R210).
`rx_total` stays while Idle (log entry 12). -/
def Obligations.LineRowsAreReads : Prop :=
  (∀ s i bytes, lineBytes s.cfg i = some bytes →
    let read := rxRead s.cfg bytes s.rcv
    LineGives s i read.1 read.2 ∧ ReadGives s bytes read.1 read.2) ∧
  (∀ s, s.cfg.encOk → Waiting s.rcv →
    (∀ v, LineGives s (.dgPom v) (delivered s.rcv 12) [.pom v]) ∧
    (∀ v, LineGives s (.dgAdrHigh v) { s.rcv with rxTotal := 12, rxAdrHigh := v } [.adrHigh v]) ∧
    (∀ v, s.rcv.rxAdrHigh = 0 → LineGives s (.dgAdrLow v) (delivered s.rcv 12) [.adrLow v (v.setWidth 14) false]) ∧
    (∀ v, s.rcv.rxAdrHigh ≠ 0 →
      LineGives s (.dgAdrLow v) (delivered s.rcv 12) [.adrLow v (s.rcv.rxAdrHigh.extractLsb' 0 6 ++ v) true]) ∧
    (∀ v x, LineGives s (.dgDyn v x) (delivered s.rcv 18) [.dyn v x]) ∧
    (∀ a b c d, LineGives s (.dgXpom0 a b c d) (delivered s.rcv 36) [.xpom 0 a b c d]) ∧
    (∀ a b c d, LineGives s (.dgXpom1 a b c d) (delivered s.rcv 36) [.xpom 1 a b c d]) ∧
    (∀ a b c d, LineGives s (.dgXpom2 a b c d) (delivered s.rcv 36) [.xpom 2 a b c d]) ∧
    (∀ a b c d, LineGives s (.dgXpom3 a b c d) (delivered s.rcv 36) [.xpom 3 a b c d]) ∧
    (∀ v, LineGives s (.dgStat2 v) (partway s.rcv 36 (bitsOf 12 (0x800 + v.toNat))) []) ∧
    (∀ cv v, LineGives s (.dgCvAuto cv v) (delivered s.rcv 36) [.cvAuto cv v]) ∧
    (∀ v, LineGives s (.dgBlock v) (partway s.rcv 48 (bitsOf 36 (0xD00000000 + v.toNat))) []) ∧
    (∀ f n c crc, LineGives s (.dgDecoderState f n c crc) (delivered s.rcv 48)
      [.decoderState f n c crc (decide (crc8 (stateBytes f n c) 0 = crc))]) ∧
    (∀ v, LineGives s (.dgRerail v) (delivered s.rcv 12) [.rerail v]) ∧
    (∀ m p, LineGives s (.dgDecoderUnique m p) (delivered s.rcv 48) [.decoderUnique m p]) ∧
    (∀ (e : Bool) (a : BitVec 11),
      let bytes := [sym s.cfg (BitVec.ofBool e ++ a.extractLsb' 6 5), sym s.cfg (a.extractLsb' 0 6)]
      LineGives s (.dgSrq e a) (rxSteps s.cfg bytes s.rcv).1 (rxSteps s.cfg bytes s.rcv).2) ∧
    (∀ crc, LineGives s (.dgDataSpace [] crc) { delivered s.rcv 12 with rxAcc := bitsOf 6 (4 * crc.toNat) }
      [.pom (0b0000#4 ++ crc.extractLsb' 4 4)])) ∧
  (∀ s, s.cfg.encOk → Waiting s.rcv → s.rcv.rxContext = .mobile →
    (∀ t p, LineGives s (.dgExt t p) (delivered s.rcv 18) [.ext t p]) ∧
    (∀ v, LineGives s (.dgStat4 v) (partway s.rcv 18 (bitsOf 12 (0x300 + v.toNat))) []) ∧
    (∀ v, LineGives s (.dgDrivingInfo v) (partway s.rcv 18 (bitsOf 12 (0x300 + v.toNat))) []) ∧
    (∀ v, LineGives s (.dgBasicInfo v) (delivered s.rcv 12) [.basicInfo v]) ∧
    (∀ v, LineGives s (.dgStat1 v) (delivered s.rcv 12) [.basicInfo v]) ∧
    (∀ u v, LineGives s (.dgTime u v) s.rcv []) ∧
    ∀ v, LineGives s (.dgError v) s.rcv []) ∧
  (∀ s, s.cfg.encOk → Waiting s.rcv → s.rcv.rxContext ≠ .mobile →
    (∀ t p, LineGives s (.dgExt t p) { delivered s.rcv 12 with rxAcc := bitsOf 6 p.toNat }
      [.stat4 (t ++ p.extractLsb' 6 2)]) ∧
    (∀ v, LineGives s (.dgStat4 v) (delivered s.rcv 12) [.stat4 v]) ∧
    (∀ v, LineGives s (.dgDrivingInfo v) (delivered s.rcv 12) [.stat4 v]) ∧
    (∀ v, LineGives s (.dgBasicInfo v) (delivered s.rcv 12) [.stat1 v]) ∧
    (∀ v, LineGives s (.dgStat1 v) (delivered s.rcv 12) [.stat1 v]) ∧
    (∀ u v, LineGives s (.dgTime u v) (delivered s.rcv 12) [.time u v]) ∧
    ∀ v, LineGives s (.dgError v) (delivered s.rcv 12) [.error v]) ∧
  (∀ s, s.cfg.encOk → s.rcv.rxExpectDs = false →
    let cleared := { s.rcv with rxState := .idle, rxAcc := [] }
    LineGives s .symAck1 cleared [] ∧ LineGives s .symAck2 cleared [] ∧ LineGives s .symNack cleared [] ∧
    ∀ v,
      (s.rcv.rxState = .idle → s.rcv.rxAcc = [] →
        LineGives s (.symData v) { s.rcv with rxAcc := bitsOf 6 v.toNat } []) ∧
      (s.rcv.rxState = .reading → s.rcv.rxAcc.length + 6 < s.rcv.rxTotal.toNat →
        LineGives s (.symData v) { s.rcv with rxAcc := s.rcv.rxAcc ++ bitsOf 6 v.toNat } []) ∧
      (∀ h : BitVec 2, s.rcv.rxState = .idle → s.rcv.rxAcc = bitsOf 6 h.toNat →
        LineGives s (.symData v) { delivered s.rcv 12 with rxAcc := [] } [.pom (h ++ v)]) ∧
      ∀ h : Byte, s.rcv.rxState = .reading → s.rcv.rxTotal = 18 → s.rcv.rxAcc = bitsOf 12 (0x300 + h.toNat) →
        LineGives s (.symData v) { delivered s.rcv 18 with rxState := .idle, rxAcc := [] }
          [.ext (h.extractLsb' 2 6) (h.extractLsb' 0 2 ++ v)]) ∧
  ∀ s, s.cfg.encOk → s.rcv.rxExpectDs = true →
    (∀ data crc, data.length ≤ 16 → LineGives s (.dgDataSpace data crc) (dataSpaceDone s.rcv)
      [.dataSpace s.rcv.rxExpectDsNum (BitVec.ofNat 8 data.length) data crc
        (decide (crc8 (BitVec.ofNat 8 data.length :: data) s.rcv.rxExpectDsNum = crc))]) ∧
    LineGives s .symAck1 (dataSpaceDone s.rcv) [] ∧ LineGives s .symAck2 (dataSpaceDone s.rcv) [] ∧
    LineGives s .symNack (dataSpaceDone s.rcv) [] ∧ ∀ v, LineGives s (.symData v) (dataSpaceDone s.rcv) []

/-- A read that ends in the middle of a datagram keeps what it has: two reads deliver what one read of all the bytes
delivers, and a read of no bytes delivers nothing and changes nothing (rule R207). The list of messages is the spec's
decision D11. -/
def Obligations.ReadsContinueOneAnother : Prop :=
  (∀ s timeout line, s.rcv.rxExpectDs = false → polledBytes (poll timeout line) = [] →
    exec (.opRxRead timeout line) s = readGives s s.rcv [] ((poll timeout line).flatMap pollCalls)) ∧
  ∀ s t1 l1 t2 l2 t l, s.rcv.rxExpectDs = false →
    polledBytes (poll t l) = polledBytes (poll t1 l1) ++ polledBytes (poll t2 l2) →
    ∃ u1 u2 u m1 m2, exec (.opRxRead t1 l1) s = .next u1 ∧ exec (.opRxRead t2 l2) u1 = .next u2 ∧
      exec (.opRxRead t l) s = .next u ∧ u.rcv = u2.rcv ∧ u1.out.messages = some m1 ∧ u2.out.messages = some m2 ∧
      u.out.messages = some (m1 ++ m2)

/-- A read polls its first round always and each further round while less than the timeout has passed since the first,
the difference taken modulo 2^32 (rules R208, R436). A round asks once how many bytes wait and reads that many, a read
that returns none being its last; what its reads return is gathered (rules R208, R437). That the rounds given are all
there are, and that a read given none makes one in which nothing waits, is the model's convention (log entry 9). -/
def Obligations.PollStopsAtTheTimeout : Prop :=
  (∀ timeout first rest,
    poll timeout (first :: rest) = first :: rest.takeWhile fun x => (x.now - first.now).toNat < timeout.toNat) ∧
  (∀ timeout, (poll timeout []).flatMap pollCalls = [.available .rx 0] ∧ polledBytes (poll timeout []) = []) ∧
  (∀ x, x.count ≤ x.bytes.length →
    pollCalls x = .available .rx x.count :: (x.bytes.take x.count).map fun b => .read .rx (some b)) ∧
  (∀ x, x.bytes.length < x.count →
    pollCalls x = .available .rx x.count :: (x.bytes.map fun b => .read .rx (some b)) ++ [.read .rx none]) ∧
  ∀ rounds, polledBytes rounds = (rounds.flatMap pollCalls).filterMap fun c =>
    match c with
    | .read _ b => b
    | _ => none

/-- The byte stream never delivers SRQ, STAT2, DRIVING_INFO, BLOCK or a data-space message (rule R210). -/
def Obligations.KindsNeverDelivered : Prop :=
  ∀ cfg bytes r, AccumulatorOk r → ∀ m ∈ (rxSteps cfg bytes r).2,
    match m with
    | .srq _ _ => False
    | .stat2 _ => False
    | .drivingInfo _ => False
    | .block _ => False
    | .dataSpace _ _ _ _ _ => False
    | _ => True

/-- A read that expects a data-space response delivers it, with the CRC compared over the bytes as received, whatever
the padding and bits 7 to 5 of the length byte, and expects nothing afterwards (rules R201 to R204). The details are
the spec's decision D10. -/
def Obligations.DataSpaceReadDelivers : Prop :=
  ∀ s lenByte data crc pad (symbols : List (BitVec 6)), s.cfg.encOk → s.rcv.rxExpectDs = true →
    (lenByte &&& 0x1F#8).toNat = data.length → data.length ≤ 16 → pad.length < 8 →
    unpack symbols = bitsOfBytes (responseBytes lenByte data crc) ++ pad →
    ReadGives s (symbols.map (sym s.cfg)) (dataSpaceDone s.rcv)
      [.dataSpace s.rcv.rxExpectDsNum lenByte data crc (decide (crc8 (lenByte :: data) s.rcv.rxExpectDsNum = crc))]

/-- A read that expects a data-space response and gets none delivers nothing, and expects nothing afterwards: a byte
that is no data symbol, fewer than two symbols, a length above 16, a byte count that is not the length plus 2 (rules
R201, R204, R205). The failures are the spec's decision D10. -/
def Obligations.DataSpaceReadFails : Prop :=
  ∀ s, s.cfg.encOk → s.rcv.rxExpectDs = true →
    (∀ bytes, (∃ b ∈ bytes, ∀ v, decode4of8 s.cfg b ≠ .data v) → ReadGives s bytes (dataSpaceDone s.rcv) []) ∧
    (∀ bytes, bytes.length < 2 → ReadGives s bytes (dataSpaceDone s.rcv) []) ∧
    ∀ (symbols : List (BitVec 6)) lenByte more, octets (unpack symbols) = lenByte :: more →
      16 < (lenByte &&& 0x1F#8).toNat ∨ more.length ≠ (lenByte &&& 0x1F#8).toNat + 1 →
      ReadGives s (symbols.map (sym s.cfg)) (dataSpaceDone s.rcv) []

/-- The CRC a sender puts on a data-space response is the one the receiver recomputes, and a response with one bit of its
data flipped is delivered with its validity flag false (rules R162, R203). -/
def Obligations.FlippedBitIsFlagged : Prop :=
  ∀ s d num data, s.cfg.encOk → d.cfg = s.cfg → data.length ≤ 16 → Room d.cfg d.dec →
    s.rcv.rxExpectDs = true → s.rcv.rxExpectDsNum = num →
    ∃ t e1 e2 crc, exec (.opSendDataSpace num data) d = .next t ∧ t.dec.ch1Q = d.dec.ch1Q ++ [e1] ∧
      t.dec.ch2Q = d.dec.ch2Q ++ [e2] ∧
      ReadGives s (e1 ++ e2) (dataSpaceDone s.rcv) [.dataSpace num (BitVec.ofNat 8 data.length) data crc true] ∧
      ∀ i (h : i < data.length) k, k < 8 →
        let flipped := data.set i (data[i] ^^^ (1#8 <<< k))
        ReadGives s (encodeRaw s.cfg (bitsOfBytes (responseBytes (BitVec.ofNat 8 data.length) flipped crc)))
          (dataSpaceDone s.rcv) [.dataSpace num (BitVec.ofNat 8 data.length) flipped crc false]

/-- Every receivable kind crosses from the send operation of a decoder to the read of a command station. -/
def Obligations.SentMessagesAreReceived : Prop :=
  ∀ d s, d.cfg = s.cfg → s.cfg.encOk → Room d.cfg d.dec → Waiting s.rcv →
    (∀ v, Crosses (.opSendPom v) d s (.pom v)) ∧
    (∀ v x, Crosses (.opSendDynamic v x) d s (.dyn v x)) ∧
    (∀ (n : BitVec 2) a b c e, Crosses (.opSendXpom (n.setWidth 8) a b c e) d s (.xpom n a b c e)) ∧
    (∀ cv v, Crosses (.opSendCvAuto cv v) d s (.cvAuto cv v)) ∧
    (∀ m p, Crosses (.opSendDecoderUnique m p) d s (.decoderUnique m p)) ∧
    (∀ f n c, ∃ crc, Crosses (.opSendDecoderState f n c) d s (.decoderState f n c crc true)) ∧
    (∀ v : Byte, Crosses (.opSendRerail (v.setWidth 16)) d s (.rerail v)) ∧
    (s.rcv.rxContext = .mobile →
      (∀ t p, Crosses (.opSendExt t p) d s (.ext t p)) ∧ ∀ v, Crosses (.opSendBasicInfo v) d s (.basicInfo v)) ∧
    (s.rcv.rxContext ≠ .mobile →
      (∀ v, Crosses (.opSendStatus1 v) d s (.stat1 v)) ∧ (∀ v, Crosses (.opSendStatus4 v) d s (.stat4 v)) ∧
      (∀ v, Crosses (.opSendError v) d s (.error v)) ∧
      ∀ (v : BitVec 7) u, Crosses (.opSendTime (v.setWidth 8) u) d s (.time u v)) ∧
    (d.dec.rotIndex = 0 → ∀ a : BitVec 14,
      Crosses (.opSendAddress a true) d s (.adrHigh (0b10#2 ++ a.extractLsb' 8 6))) ∧
    (d.dec.rotIndex = 1 → s.rcv.rxAdrHigh = 0 → ∀ a : BitVec 7,
      Crosses (.opSendAddress (a.setWidth 14) false) d s (.adrLow (a.setWidth 8) (a.setWidth 14) false))

/-! ### Commands -/

/-- LOGON_ENABLE: a decoder that is neither announced nor registered broadcasts its identity where its backoff counter
is zero, and counts down where it is not (rules R330, R331). The step through WAITING_FOR_LOGON and the reload are the
spec's decisions D28 and D29. -/
def Obligations.LogonEnableSingulates : Prop :=
  ∀ s group cid session e,
    let d := s.dec
    let cmd := Cmd.logonEnable group cid session
    (d.logonState = .announced ∨ d.logonState = .registered →
      exec (.dccLogonEnable group cid session e) s = packetGives s cmd false d) ∧
    (d.logonState = .idle ∨ d.logonState = .waitingForLogon ∨ d.logonState = .inSingulation →
      (d.backoffCounter = 0 → exec (.dccLogonEnable group cid session e) s =
        packetGives s cmd true
          { pushBoth s.cfg (dg48Head s.cfg 15 (d.mfgId ++ d.productId)) (dg48Tail s.cfg (d.mfgId ++ d.productId)) d with
            backoffCounter := d.backoffValue
            backoffValue := BitVec.ofNat 32 (min (d.backoffValue.toNat + s.cfg.backoffStep) 0xFFFFFFFF)
            logonState := .inSingulation }) ∧
      (d.backoffCounter ≠ 0 → exec (.dccLogonEnable group cid session e) s =
        packetGives s cmd false
          { d with
            backoffCounter := d.backoffCounter - 1
            logonState := if d.logonState = .idle then .waitingForLogon else d.logonState }))

/-- From a backoff pair (c, v), c LOGON_ENABLE packets in a row broadcast nothing and the next one broadcasts; the
backoff value then is larger, short of saturation (rule R331). The reload is the spec's decision D29. -/
def Obligations.BackoffDelaysAndGrows : Prop :=
  ∀ s group cid session e, logonCode s.dec.logonState < 3 → 1 ≤ s.cfg.backoffStep →
    ∃ t u, runAll (List.replicate s.dec.backoffCounter.toNat (.dccLogonEnable group cid session e)) s = .next t ∧
      t.dec.ch1Q = s.dec.ch1Q ∧ t.dec.ch2Q = s.dec.ch2Q ∧ t.dec.backoffCounter = 0 ∧
      t.dec.backoffValue = s.dec.backoffValue ∧
      exec (.dccLogonEnable group cid session e) t = .next u ∧ u.out.responseTriggered = some true ∧
      u.dec.logonState = .inSingulation ∧ u.dec.backoffCounter = s.dec.backoffValue ∧
      (s.dec.backoffValue ≠ 0xFFFFFFFF → s.dec.backoffValue.toNat < u.dec.backoffValue.toNat)

/-- SELECT announces and LOGON_ASSIGN registers the decoder they name, and only that one (rules R333, R334). The
effects are the spec's decision D30. -/
def Obligations.SelectAndLogonAssign : Prop :=
  ∀ s (mfg : BitVec 12) (uid : Word32),
    let d := s.dec
    (∀ sub params e,
      (mfg = d.mfgId ∧ uid = d.productId ∧ logonCode d.logonState < 3 →
        exec (.dccSelect mfg uid sub params e) s =
          packetGives s (.select mfg uid sub params) false { d with logonState := .announced }) ∧
      (¬ (mfg = d.mfgId ∧ uid = d.productId ∧ logonCode d.logonState < 3) →
        exec (.dccSelect mfg uid sub params e) s = packetGives s (.select mfg uid sub params) false d)) ∧
    ∀ akind addr tail e,
      (mfg = d.mfgId ∧ uid = d.productId →
        let p : BitVec 44 := d.dsFlags ++ d.dsCount ++ d.dsCaps ++ crc8 (stateBytes d.dsFlags d.dsCount d.dsCaps) 0
        exec (.dccLogonAssign mfg uid akind addr tail e) s =
          packetGives s (.logonAssign mfg uid akind addr) true
            (pushBoth s.cfg (dg48Head s.cfg 13 p) (dg48Tail s.cfg p)
              { d with address := addr, addrLong := decide (127 < addr.toNat), logonState := .registered })) ∧
      (¬ (mfg = d.mfgId ∧ uid = d.productId) →
        exec (.dccLogonAssign mfg uid akind addr tail e) s = packetGives s (.logonAssign mfg uid akind addr) false d)

/-- POM_READ answers a directly addressed decoder's CV, if the map has it, on channel 2 (rule R335). Silence for a
missing CV is the spec's decision D32, the default broadcast D27. -/
def Obligations.PomReadAnswersTheCv : Prop :=
  ∀ s (v : BitVec 10) (x e : Byte),
    let cv : BitVec 11 := v.setWidth 11 + 1
    let answer := fun d : Decoder =>
      match d.cv.lookup (cv.setWidth 24) with
      | some value => (push2 s.cfg (dg12 s.cfg 0 value) d, true)
      | none => (d, false)
    exec (.dccPomReadBroadcast v x e) s = mobileGives s false (.pomRead .broadcast 0 cv) answer ∧
    (∀ a, exec (.dccPomReadShort a v x e) s =
      mobileGives s (ownShort a s.dec) (.pomRead .short (a.setWidth 14) cv) answer) ∧
    ∀ a, exec (.dccPomReadLong a v x e) s = mobileGives s (ownLong a s.dec) (.pomRead .long a cv) answer

/-- The commands without an answer: the logon data commands change nothing (rule R336); POM_WRITE, POM_WRITE_BIT and
the function groups change nothing but the latch of a directly addressed decoder (rules R338 to R340). The default
broadcast where the command is not addressed is the spec's decision D27. -/
def Obligations.SilentCommands : Prop :=
  ∀ s (e : Byte),
    let quiet := fun d : Decoder => (d, false)
    (exec (.dccGetDataStart e) s = packetGives s .getDataStart false s.dec ∧
      exec (.dccGetDataCont e) s = packetGives s .getDataCont false s.dec ∧
      ∀ data, exec (.dccSetData data e) s = packetGives s (.setData data) false s.dec ∧
        exec (.dccSetDataEnd data e) s = packetGives s (.setDataEnd data) false s.dec) ∧
    (∀ (v : BitVec 10) d,
      let cv : BitVec 11 := v.setWidth 11 + 1
      exec (.dccPomWriteBroadcast v d e) s = mobileGives s false (.pomWrite .broadcast 0 cv d) quiet ∧
      (∀ a, exec (.dccPomWriteShort a v d e) s =
        mobileGives s (ownShort a s.dec) (.pomWrite .short (a.setWidth 14) cv d) quiet) ∧
      ∀ a, exec (.dccPomWriteLong a v d e) s = mobileGives s (ownLong a s.dec) (.pomWrite .long a cv d) quiet) ∧
    (∀ (v : BitVec 10) x d b,
      let cv : BitVec 11 := v.setWidth 11 + 1
      exec (.dccPomWriteBitBroadcast v x d b e) s = mobileGives s false (.pomWriteBit .broadcast 0 cv b d) quiet ∧
      (∀ a, exec (.dccPomWriteBitShort a v x d b e) s =
        mobileGives s (ownShort a s.dec) (.pomWriteBit .short (a.setWidth 14) cv b d) quiet) ∧
      ∀ a, exec (.dccPomWriteBitLong a v x d b e) s =
        mobileGives s (ownLong a s.dec) (.pomWriteBit .long a cv b d) quiet) ∧
    (∀ d : BitVec 5,
      let state : BitVec 5 := d.extractLsb' 0 4 ++ d.extractLsb' 4 1
      exec (.dccFunctionG1Broadcast d e) s = mobileGives s false (.function .broadcast 0 0 state) quiet ∧
      (∀ a, exec (.dccFunctionG1Short a d e) s =
        mobileGives s (ownShort a s.dec) (.function .short (a.setWidth 14) 0 state) quiet) ∧
      ∀ a, exec (.dccFunctionG1Long a d e) s = mobileGives s (ownLong a s.dec) (.function .long a 0 state) quiet) ∧
    ∀ d : BitVec 4,
      exec (.dccFunctionG2F5Broadcast d e) s = mobileGives s false (.function .broadcast 0 5 (d.setWidth 5)) quiet ∧
      exec (.dccFunctionG2F9Broadcast d e) s = mobileGives s false (.function .broadcast 0 9 (d.setWidth 5)) quiet ∧
      (∀ a, exec (.dccFunctionG2F5Short a d e) s =
          mobileGives s (ownShort a s.dec) (.function .short (a.setWidth 14) 5 (d.setWidth 5)) quiet ∧
        exec (.dccFunctionG2F9Short a d e) s =
          mobileGives s (ownShort a s.dec) (.function .short (a.setWidth 14) 9 (d.setWidth 5)) quiet) ∧
      ∀ a, exec (.dccFunctionG2F5Long a d e) s =
          mobileGives s (ownLong a s.dec) (.function .long a 5 (d.setWidth 5)) quiet ∧
        exec (.dccFunctionG2F9Long a d e) s =
          mobileGives s (ownLong a s.dec) (.function .long a 9 (d.setWidth 5)) quiet

/-- ACCESSORY sets or clears the named bit of the mask of a directly addressed decoder, only that bit, and answers the
mask as STAT1 or STAT4 on channel 2 (rule R337). The kind of the answer is the spec's decision D33, the default
broadcast D27. -/
def Obligations.AccessorySetsItsBit : Prop :=
  ∀ s (a : BitVec 6) (h : BitVec 3) c out e,
    let address : BitVec 9 := ~~~h ++ a
    let cmd := Cmd.accessory address c out
    (ownAccessory address s.dec = true →
      ∃ mask : Byte, (∀ k, k < 8 → mask.getLsbD k = if k = out.toNat then c else s.dec.accessoryMask.getLsbD k) ∧
        exec (.dccAccessory a h c out e) s = packetGives s cmd true
          (push2 s.cfg (dg12 s.cfg (if s.dec.statusKind = .stat1 then 4 else 3) mask)
            { unlatched s.dec with accessoryMask := mask })) ∧
    (ownAccessory address s.dec = false →
      exec (.dccAccessory a h c out e) s = packetGives s cmd false (defaultAnswer s.cfg s.dec))

/-- EXT_FUNCTION: the rerailing search is answered by every decoder with address and uptime, command 1 by the
addressed one with its position, command 3 toggles its CV-Auto flag, every other command does nothing (rules R341 to
R344). The answers to commands 1 and 2 are the spec's decisions D34 and D37, the default broadcast D27. -/
def Obligations.ExtFunctionCommands : Prop :=
  ∀ s (c e : Byte),
    let own := fun d : Decoder =>
      if c = 1 then (push2 s.cfg (dg18 s.cfg 3 (d.extType ++ d.extPosition)) d, true)
      else if c = 3 then
        ({ d with cvAutoActive := !d.cvAutoActive, cvCursor := if d.cvAutoActive then d.cvCursor else 0 }, false)
      else (d, false)
    (c = 2 → exec (.dccExtFunctionBroadcast c e) s = packetGives s (.extFunction .broadcast 0 c) true
      (push2 s.cfg (dg12 s.cfg 14 (BitVec.ofNat 8 (min s.dec.uptimeS.toNat 255)))
        (rotate s.cfg s.dec.address s.dec.addrLong s.dec))) ∧
    (c ≠ 2 → exec (.dccExtFunctionBroadcast c e) s = mobileGives s false (.extFunction .broadcast 0 c) own) ∧
    (∀ a, exec (.dccExtFunctionShort a c e) s =
      mobileGives s (ownShort a s.dec) (.extFunction .short (a.setWidth 14) c) own) ∧
    ∀ a, exec (.dccExtFunctionLong a c e) s = mobileGives s (ownLong a s.dec) (.extFunction .long a c) own

/-- DATA_SPACE_READ answers a directly addressed decoder's data from the offset on, at most 16 bytes, and nothing
where the space does not exist or the offset is at or beyond its length (rule R347). The slice of at most 16 bytes and
an offset equal to the length are the spec's decision D36 (rule R74), the split over the channels D5, the default
broadcast D27. -/
def Obligations.DataSpaceReadCommand : Prop :=
  ∀ s (n o e : Byte),
    let answer := fun d : Decoder =>
      match d.ds.find? (·.num == n) with
      | none => (d, false)
      | some r =>
        if r.bytes.length ≤ o.toNat then (d, false)
        else
          let wire := responseWire s.cfg n ((r.bytes.drop o.toNat).take 16)
          (pushBoth s.cfg (wire.take 2) (wire.drop 2) d, true)
    exec (.dccDataSpaceReadBroadcast n o e) s = mobileGives s false (.dataSpaceRead .broadcast 0 n o) answer ∧
    (∀ a, exec (.dccDataSpaceReadShort a n o e) s =
      mobileGives s (ownShort a s.dec) (.dataSpaceRead .short (a.setWidth 14) n o) answer) ∧
    ∀ a, exec (.dccDataSpaceReadLong a n o e) s = mobileGives s (ownLong a s.dec) (.dataSpaceRead .long a n o) answer

/-- The CV-Auto tick sends the entry at the cursor and moves on, wrapping after the last; it does nothing with the
flag off or an empty map (rule R345). The inactive and empty cases are the spec's decision D35. -/
def Obligations.CvAutoTickSendsOneEntry : Prop :=
  (∀ cfg, hostCode cfg .opCvAutoTick = some 0x05) ∧
  (∀ s, s.dec.cvAutoActive = false ∨ s.dec.cv = [] → exec .opCvAutoTick s = decoderBecomes s s.dec) ∧
  ∀ s (h : s.dec.cvCursor < s.dec.cv.length), s.dec.cvAutoActive = true →
    exec .opCvAutoTick s = decoderBecomes s
      { push2 s.cfg (dg36 s.cfg 12 ((s.dec.cv[s.dec.cvCursor]).1 ++ (s.dec.cv[s.dec.cvCursor]).2)) s.dec with
        cvCursor := (s.dec.cvCursor + 1) % s.dec.cv.length }

/-- Ticks from the first entry visit the entries in insertion order, over and over (rules R345, R346). -/
def Obligations.CvAutoVisitsTheMapInOrder : Prop :=
  ∀ s n (h : s.dec.cv ≠ []), s.dec.cvAutoActive = true → s.dec.cvCursor = 0 →
    s.dec.ch2Q.length + n ≤ s.cfg.ch2Depth →
    ∃ t, runAll (List.replicate n .opCvAutoTick) s = .next t ∧ t.dec.cvCursor = n % s.dec.cv.length ∧
      t.dec.ch2Q = s.dec.ch2Q ++ (List.range n).map fun k =>
        let entry := s.dec.cv[k % s.dec.cv.length]'(Nat.mod_lt _ (List.length_pos_iff.2 h))
        dg36 s.cfg 12 (entry.1 ++ entry.2)

/-! ### Rules of the whole machine -/

/-- The logon state moves as rule R350 tabulates, by no other event, and its code never decreases but by `logon_reset`
and `reset` (rules R350, R351). -/
def Obligations.LogonStateMovesForward : Prop :=
  ∀ i s t, exec i s = .next t →
    (i = .opReset ∨ i = .opLogonReset → t.dec.logonState = .idle) ∧
    (i ≠ .opReset → i ≠ .opLogonReset →
      t.dec.logonState = logonAfter s.dec t.out.cmdOut ∧ logonCode s.dec.logonState ≤ logonCode t.dec.logonState)

/-- The broadcast latch is cleared by a directly addressed command, set by `reset`, and changed by nothing else (rules
R32, R322). -/
def Obligations.LatchIsSetOnlyByReset : Prop :=
  ∀ i s t, exec i s = .next t →
    (i = .opReset → t.dec.ch1BroadcastEnabled = true) ∧
    (i ≠ .opReset → t.dec.ch1BroadcastEnabled =
      (s.dec.ch1BroadcastEnabled && !(match t.out.cmdOut with | some cmd => addressed cmd s.dec | none => false)))

/-- The stores and the registers of configuration change only by the operations that configure them and by `reset`;
the parameters never change (rules R44, R45, R452, section 2 of 10_state.md). The widths and capacities are the spec's
decision D44. -/
def Obligations.ConfigurationChangesOnlyByTheHost : Prop :=
  ∀ i s t, exec i s = .next t → t.cfg = s.cfg ∧ t.port = s.port ∧
    (i ≠ .opReset →
      (t.dec.cv ≠ s.dec.cv → i = .opCvClear ∨ ∃ key value, i = .opCvSet key value) ∧
      (t.dec.ds ≠ s.dec.ds → i = .opDsClear ∨ ∃ num bytes, i = .opDsSet num bytes) ∧
      (t.dec.mfgId ≠ s.dec.mfgId ∨ t.dec.productId ≠ s.dec.productId → ∃ m p, i = .opSetIdentity m p) ∧
      (t.dec.decoderClass ≠ s.dec.decoderClass ∨ t.dec.statusKind ≠ s.dec.statusKind → ∃ c k, i = .opSetClass c k) ∧
      (t.dec.extInfoEnabled ≠ s.dec.extInfoEnabled → ∃ en, i = .opSetExtInfoEnabled en) ∧
      (t.dec.extInfo ≠ s.dec.extInfo → ∃ info, i = .opSetExtInfo info) ∧
      (t.dec.extType ≠ s.dec.extType ∨ t.dec.extPosition ≠ s.dec.extPosition → ∃ k p, i = .opSetExtPosition k p) ∧
      (t.dec.dsFlags ≠ s.dec.dsFlags ∨ t.dec.dsCount ≠ s.dec.dsCount ∨ t.dec.dsCaps ≠ s.dec.dsCaps →
        ∃ f n c, i = .opSetDecoderStateFields f n c) ∧
      (t.dec.address ≠ s.dec.address ∨ t.dec.addrLong ≠ s.dec.addrLong →
        (∃ a long, i = .opSetAddress a long) ∨ ∃ m u k a, t.out.cmdOut = some (.logonAssign m u k a)) ∧
      (t.dec.uptimeS ≠ s.dec.uptimeS → i = .opSecondTick) ∧
      (t.rcv.rxContext ≠ s.rcv.rxContext → ∃ ctx, i = .opRxSetContext ctx))

/-- No operation but `reset` joins the two halves: each leaves one half alone, and what it does to the other, and what
it puts out, depends on that half and the parameters alone (rules R20, R420). Rule R20 is the spec's own derivation.
-/
def Obligations.HalvesAreDisjoint : Prop :=
  ∀ i, i ≠ .opReset →
    (∀ s s' t t', exec i s = .next t → exec i s' = .next t' →
      t.rcv = s.rcv ∧ (s.cfg = s'.cfg → s.dec = s'.dec → t.dec = t'.dec ∧ t.out = t'.out)) ∨
    ∀ s s' t t', exec i s = .next t → exec i s' = .next t' →
      t.dec = s.dec ∧ (s.cfg = s'.cfg → s.rcv = s'.rcv → t.rcv = t'.rcv ∧ t.out = t'.out)

/-- Every step keeps the invariant: the parameters are legal; the queues hold at most their depths of well-formed
entries; the keys of the stores are distinct and within capacity; the cursor, the rotation index and the accumulator are
in range (rules R9, R35, R36, R43 to R45, R181, R473). -/
def Obligations.StepKeepsTheInvariant : Prop :=
  ∀ s t, Safety.Inv s → step s = .next t → Safety.Inv t

/-- The state after reset has the invariant; in particular the default parameters are legal (rules R9, R101). -/
def Obligations.ResetHasTheInvariant : Prop :=
  Safety.Inv State.reset
end

