-- ==== Sys2Proof/Laws/Bits.lean ====
section
/-! SUPPORT. Fields of concatenations and concatenations of fields: how operands are taken apart and put together. -/

namespace Sys2Proof.Machine

section Fields

variable {m n k : Nat}

/-- The high field of a concatenation. -/
@[simp] theorem extract_append_high (x : BitVec m) (y : BitVec n) : (x ++ y).extractLsb' n m = x := by
  ext i hi
  simp [BitVec.getLsbD_append, hi]

/-- The low field of a concatenation. -/
@[simp] theorem extract_append_low (x : BitVec m) (y : BitVec n) : (x ++ y).extractLsb' 0 n = y := by
  ext i hi
  simp [BitVec.getLsbD_append, hi]

/-- A field of the high part. -/
theorem extract_append_of_le (x : BitVec m) (y : BitVec n) (lo w : Nat) (h : n ≤ lo) :
    (x ++ y).extractLsb' lo w = x.extractLsb' (lo - n) w := by
  ext i hi
  simp only [BitVec.getElem_extractLsb', BitVec.getLsbD_append]
  rw [if_neg (by omega)]
  congr 1
  omega

/-- A field of the low part. -/
theorem extract_append_of_lt (x : BitVec m) (y : BitVec n) (lo w : Nat) (h : lo + w ≤ n) :
    (x ++ y).extractLsb' lo w = y.extractLsb' lo w := by
  ext i hi
  simp only [BitVec.getElem_extractLsb', BitVec.getLsbD_append]
  rw [if_pos (by omega)]

/-- A value is its high field and its low field. -/
theorem append_extract (x : BitVec (m + n)) : x.extractLsb' n m ++ x.extractLsb' 0 n = x := by
  ext i hi
  simp only [BitVec.getElem_append, BitVec.getElem_extractLsb']
  split
  · simp [BitVec.getLsbD_eq_getElem hi]
  · rw [← BitVec.getLsbD_eq_getElem hi]
    congr 1
    omega

/-- A value whose high field is known. -/
theorem append_extract_of_eq {x : BitVec (m + n)} {c : BitVec m} (h : x.extractLsb' n m = c) :
    c ++ x.extractLsb' 0 n = x := by
  rw [← h, append_extract]

/-- Two adjacent fields are one. -/
theorem extract_append_extract (x : BitVec k) (lo : Nat) :
    x.extractLsb' (lo + n) m ++ x.extractLsb' lo n = x.extractLsb' lo (m + n) := by
  ext i hi
  simp only [BitVec.getElem_append, BitVec.getElem_extractLsb']
  split
  · rfl
  · congr 1
    omega

/-- The field of a number's payload is the field of the bit vector (rule R11). -/
theorem payloadField_toNat (x : BitVec k) (lo w : Nat) : payloadField x.toNat lo w = x.extractLsb' lo w := rfl

end Fields

/-! ### Arguments of the host port -/

@[simp] theorem bytes16_append (v : BitVec 16) : v.extractLsb' 8 8 ++ v.extractLsb' 0 8 = v :=
  append_extract (m := 8) (n := 8) v

@[simp] theorem bytes24_append (v : BitVec 24) :
    v.extractLsb' 16 8 ++ (v.extractLsb' 8 8 ++ v.extractLsb' 0 8) = v := by
  rw [extract_append_extract (n := 8) (m := 8) v 0]
  exact append_extract (m := 8) (n := 16) v

@[simp] theorem bytes32_append (v : BitVec 32) :
    v.extractLsb' 24 8 ++ (v.extractLsb' 16 8 ++ (v.extractLsb' 8 8 ++ v.extractLsb' 0 8)) = v := by
  rw [extract_append_extract (n := 8) (m := 8) v 0, extract_append_extract (n := 16) (m := 8) v 0]
  exact append_extract (m := 8) (n := 24) v

@[simp] theorem arg8_zero (b : Byte) (rest : List Byte) : arg8 (b :: rest) 0 = b := rfl

@[simp] theorem arg8_succ (b : Byte) (rest : List Byte) (i : Nat) : arg8 (b :: rest) (i + 1) = arg8 rest i := rfl

@[simp] theorem arg8_nil (i : Nat) : arg8 [] i = 0 := rfl

@[simp] theorem byteBit_getLsbD (b : Bool) : (byteBit b).getLsbD 0 = b := by cases b <;> rfl

@[simp] theorem classOfBit_bitOfClass (c : DecoderClass) : classOfBit (bitOfClass c) = c := by cases c <;> rfl

@[simp] theorem kindOfBit_bitOfKind (k : StatusKind) : kindOfBit (bitOfKind k) = k := by cases k <;> rfl

/-- The arguments of a counted list are the list. -/
theorem argBytes_of_length (a b : Byte) (bytes : List Byte) : argBytes (a :: b :: bytes) 2 bytes.length = bytes := by
  simp [argBytes]

end Sys2Proof.Machine
end

