-- ==== Sys2Proof/Laws/Codec.lean ====
section
/-! SUPPORT. Bit strings, their cutting into symbols and bytes, and the CRC register: what each function of the Codec
does, said once. -/

namespace Sys2Proof.Machine

/-! ### Bit strings -/

@[simp] theorem length_bitsOf (n v : Nat) : (bitsOf n v).length = n := by
  induction n with
  | zero => rfl
  | succ n ih => simp [bitsOf, ih]

theorem bitsVal_foldl (bits : List Bool) (acc : Nat) :
    bits.foldl (fun acc b => 2 * acc + b.toNat) acc = acc * 2 ^ bits.length + bitsVal bits := by
  induction bits generalizing acc with
  | nil => simp [bitsVal]
  | cons b rest ih =>
    rw [bitsVal, List.foldl_cons, List.foldl_cons, ih, ih (2 * 0 + b.toNat), List.length_cons]
    ring

@[simp] theorem bitsVal_nil : bitsVal [] = 0 := rfl

theorem bitsVal_cons (b : Bool) (rest : List Bool) :
    bitsVal (b :: rest) = b.toNat * 2 ^ rest.length + bitsVal rest := by
  simpa [bitsVal] using bitsVal_foldl rest b.toNat

theorem bitsVal_append (a b : List Bool) : bitsVal (a ++ b) = bitsVal a * 2 ^ b.length + bitsVal b := by
  induction a with
  | nil => simp
  | cons x rest ih => simp only [List.cons_append, bitsVal_cons, ih, List.length_append, pow_add]; ring

theorem bitsVal_lt (bits : List Bool) : bitsVal bits < 2 ^ bits.length := by
  induction bits with
  | nil => simp
  | cons b rest ih =>
    rw [bitsVal_cons, List.length_cons, pow_succ]
    have hb : b.toNat ≤ 1 := by cases b <;> simp
    nlinarith [Nat.mul_le_mul_right (2 ^ rest.length) hb]

/-- The value of the low `n` bits. -/
@[simp] theorem bitsVal_bitsOf (n v : Nat) : bitsVal (bitsOf n v) = v % 2 ^ n := by
  induction n with
  | zero => simp [bitsOf, Nat.mod_one]
  | succ n ih =>
    rw [bitsOf, bitsVal_cons, length_bitsOf, ih, Nat.testBit_eq_decide_div_mod_eq, pow_succ, Nat.mod_mul]
    rcases Nat.mod_two_eq_zero_or_one (v / 2 ^ n) with h | h <;> simp [h, Nat.add_comm]

/-- A bit string is the bits of its value. -/
theorem bitsOf_bitsVal (bits : List Bool) : bitsOf bits.length (bitsVal bits) = bits := by
  induction bits with
  | nil => rfl
  | cons b rest ih =>
    have hlt := bitsVal_lt rest
    rw [List.length_cons, bitsOf]
    congr 1
    · rw [bitsVal_cons, Nat.testBit_eq_decide_div_mod_eq, Nat.mul_comm, Nat.mul_add_div (by positivity), Nat.div_eq_of_lt hlt]
      cases b <;> rfl
    · conv_rhs => rw [← ih]
      have key : ∀ m w x : Nat, bitsOf m (x * 2 ^ m + w) = bitsOf m w := by
        intro m
        induction m with
        | zero => intros; rfl
        | succ k hk =>
          intro w x
          simp only [bitsOf]
          congr 1
          · have : x * 2 ^ (k + 1) + w = w + (2 * x) * 2 ^ k := by ring
            rw [Nat.testBit_eq_decide_div_mod_eq, Nat.testBit_eq_decide_div_mod_eq, this,
              Nat.add_mul_div_right _ _ (by positivity), Nat.add_mul_mod_self_left]
          · have : x * 2 ^ (k + 1) + w = (2 * x) * 2 ^ k + w := by ring
            rw [this, hk]
      rw [bitsVal_cons, key]

/-- The bits of a number are its high bits, then its low bits. -/
theorem bitsOf_add (m n v : Nat) : bitsOf (m + n) v = bitsOf m (v >>> n) ++ bitsOf n v := by
  induction m with
  | zero => simp [bitsOf]
  | succ m ih => rw [Nat.succ_add, bitsOf, ih, bitsOf]; simp [Nat.testBit_shiftRight, Nat.add_comm]

/-! ### Cutting -/

theorem sixes_append {a : List Bool} (h : a.length = 6) (b : List Bool) : sixes (a ++ b) = bitsVal a :: sixes b := by
  match a, h with
  | [_, _, _, _, _, _], _ => rfl

theorem octets_append {a : List Bool} (h : a.length = 8) (b : List Bool) :
    octets (a ++ b) = BitVec.ofNat 8 (bitsVal a) :: octets b := by
  match a, h with
  | [_, _, _, _, _, _, _, _], _ => rfl

theorem octets_short {a : List Bool} (h : a.length < 8) : octets a = [] := by
  match a, h with
  | [], _ | [_], _ | [_, _], _ | [_, _, _], _ | [_, _, _, _], _ | [_, _, _, _, _], _ | [_, _, _, _, _, _], _
  | [_, _, _, _, _, _, _], _ => rfl

theorem sixes_short {a : List Bool} (h : a.length < 6) : sixes a = [] := by
  match a, h with
  | [], _ | [_], _ | [_, _], _ | [_, _, _], _ | [_, _, _, _], _ | [_, _, _, _, _], _ => rfl

/-- Cutting takes whole symbols only. -/
theorem length_sixes (bits : List Bool) : (sixes bits).length = bits.length / 6 := by
  induction h : bits.length using Nat.strong_induction_on generalizing bits with
  | _ n ih =>
    by_cases hn : bits.length < 6
    · rw [sixes_short hn]; simp; omega
    · rw [← List.take_append_drop 6 bits, sixes_append (by simp; omega)]
      simp only [List.length_cons]
      rw [ih (bits.drop 6).length (by simp; omega) _ rfl]
      simp; omega

/-- Cutting takes whole bytes only (rule R202). -/
theorem length_octets (bits : List Bool) : (octets bits).length = bits.length / 8 := by
  induction h : bits.length using Nat.strong_induction_on generalizing bits with
  | _ n ih =>
    by_cases hn : bits.length < 8
    · rw [octets_short hn]; simp; omega
    · rw [← List.take_append_drop 8 bits, octets_append (by simp; omega)]
      simp only [List.length_cons]
      rw [ih (bits.drop 8).length (by simp; omega) _ rfl]
      simp; omega

/-- Every symbol is a 6-bit value. -/
theorem lt_of_mem_sixes {bits : List Bool} {v : Nat} (h : v ∈ sixes bits) : v < 64 := by
  induction hl : bits.length using Nat.strong_induction_on generalizing bits with
  | _ n ih =>
    by_cases hn : bits.length < 6
    · rw [sixes_short hn] at h; simp at h
    · have h6 : (bits.take 6).length = 6 := by simp; omega
      rw [← List.take_append_drop 6 bits, sixes_append h6] at h
      rcases List.mem_cons.1 h with rfl | h
      · simpa [h6] using bitsVal_lt (bits.take 6)
      · exact ih (bits.drop 6).length (by simp; omega) h rfl

/-- The bits of bytes, cut into bytes, are the bytes; a rest of fewer than 8 bits is ignored (rules R77, R202). -/
theorem octets_bitsOfBytes (bytes : List Byte) {rest : List Bool} (h : rest.length < 8) :
    octets (bitsOfBytes bytes ++ rest) = bytes := by
  induction bytes with
  | nil => simpa [bitsOfBytes] using octets_short h
  | cons b more ih =>
    have e : bitsOfBytes (b :: more) ++ rest = bitsOf 8 b.toNat ++ (bitsOfBytes more ++ rest) := by simp [bitsOfBytes]
    rw [e, octets_append (by simp), ih, bitsVal_bitsOf, Nat.mod_eq_of_lt b.isLt]
    simp

@[simp] theorem length_bitsOfBytes (bytes : List Byte) : (bitsOfBytes bytes).length = 8 * bytes.length := by
  induction bytes with
  | nil => rfl
  | cons b more ih =>
    have e : bitsOfBytes (b :: more) = bitsOf 8 b.toNat ++ bitsOfBytes more := by simp [bitsOfBytes]
    rw [e]; simp [ih]; omega

@[simp] theorem length_unpack (symbols : List (BitVec 6)) : (unpack symbols).length = 6 * symbols.length := by
  induction symbols with
  | nil => rfl
  | cons v more ih =>
    have e : unpack (v :: more) = bitsOf 6 v.toNat ++ unpack more := by simp [unpack]
    rw [e]; simp [ih]; omega

/-- Symbols written out as bits and cut again are the symbols. -/
theorem sixes_unpack (symbols : List (BitVec 6)) : sixes (unpack symbols) = symbols.map (·.toNat) := by
  induction symbols with
  | nil => rfl
  | cons v more ih =>
    have e : unpack (v :: more) = bitsOf 6 v.toNat ++ unpack more := by simp [unpack]
    rw [e, sixes_append (by simp), ih]
    simp [Nat.mod_eq_of_lt v.isLt]

/-! ### Packing -/

/-- The number of symbols of a bit string (rule R165). -/
theorem length_encodeRaw (cfg : Config) (bits : List Bool) : (encodeRaw cfg bits).length = (bits.length + 5) / 6 := by
  simp only [encodeRaw, List.length_map, length_sixes, List.length_append, List.length_replicate]
  omega

/-- Every packed byte is the code of a 6-bit value (rules R151, R154). -/
theorem mem_encodeRaw {cfg : Config} {bits : List Bool} {b : Byte} (h : b ∈ encodeRaw cfg bits) :
    ∃ v < 64, b = encode4of8 cfg v := by
  obtain ⟨v, hv, rfl⟩ := List.mem_map.1 h
  exact ⟨v, lt_of_mem_sixes hv, rfl⟩

/-- The code of a 6-bit value is an entry of the table. -/
theorem encode4of8_mem {cfg : Config} (h : cfg.enc4of8.length = 64) {v : Nat} (hv : v < 64) :
    encode4of8 cfg v ∈ cfg.enc4of8 := by
  rw [encode4of8, if_pos (by omega), List.getD_eq_getElem _ _ (by omega)]
  exact List.getElem_mem _

@[simp] theorem length_encodeDatagram (cfg : Config) (id : BitVec 4) (p n : Nat) :
    (encodeDatagram cfg id p n).length = (n + 9) / 6 := by
  simp only [encodeDatagram, length_encodeRaw, List.length_append, length_bitsOf]
  omega

/-! ### The CRC register -/

/-- The CRC of a longer string continues from the CRC of its front (rule R160). -/
theorem crc8_append (a b : List Byte) (init : Byte) : crc8 (a ++ b) init = crc8 b (crc8 a init) := by
  simp [crc8]

@[simp] theorem crc8_nil (init : Byte) : crc8 [] init = init := rfl

@[simp] theorem crc8_cons (d : Byte) (rest : List Byte) (init : Byte) : crc8 (d :: rest) init = crc8 rest (crcByte init d) :=
  rfl

/-- One shift is linear over exclusive-or. -/
theorem crcShift_xor (a b : Byte) : crcShift (a ^^^ b) = crcShift a ^^^ crcShift b := by
  simp only [crcShift, BitVec.getLsbD_xor, BitVec.ushiftRight_xor_distrib]
  generalize a >>> 1 = x
  generalize b >>> 1 = y
  cases a.getLsbD 0 <;> cases b.getLsbD 0 <;> simp
  · ac_rfl
  · ac_rfl
  · have e : x ^^^ 140#8 ^^^ (y ^^^ 140#8) = x ^^^ y ^^^ (140#8 ^^^ 140#8) := by ac_rfl
    simp [e]

/-- No non-zero register shifts to zero. -/
theorem crcShift_eq_zero : ∀ c : Byte, crcShift c = 0 → c = 0 := by decide

/-- A byte into the register is linear over exclusive-or. -/
theorem crcByte_xor (a b c d : Byte) : crcByte (a ^^^ b) (c ^^^ d) = crcByte a c ^^^ crcByte b d := by
  have e : a ^^^ b ^^^ (c ^^^ d) = (a ^^^ c) ^^^ (b ^^^ d) := by ac_rfl
  simp only [crcByte, e, crcShift_xor]

/-- Packing takes 6 bits at a time (rule R165). -/
theorem encodeRaw_six {cfg : Config} {a : List Bool} (h : a.length = 6) (b : List Bool) :
    encodeRaw cfg (a ++ b) = encode4of8 cfg (bitsVal a) :: encodeRaw cfg b := by
  simp only [encodeRaw, List.append_assoc]
  rw [sixes_append h, List.map_cons]
  congr 4
  simp [h]

/-- The bits of a concatenation are those of its parts. -/
theorem bitsOf_toNat_append {m n : Nat} (x : BitVec m) (y : BitVec n) :
    bitsOf (m + n) (x ++ y).toNat = bitsOf m x.toNat ++ bitsOf n y.toNat := by
  have e : ∀ n v, bitsOf n v = bitsOf n (v % 2 ^ n) := fun n v => by
    simpa using (bitsOf_bitsVal (bitsOf n v)).symm
  rw [bitsOf_add]
  congr 1
  · rw [e m]; congr 1
    have h := congrArg BitVec.toNat (extract_append_high x y)
    rwa [BitVec.extractLsb'_toNat] at h
  · rw [e n]; congr 1
    have h := congrArg BitVec.toNat (extract_append_low x y)
    rwa [BitVec.extractLsb'_toNat, Nat.shiftRight_zero] at h

end Sys2Proof.Machine
end

