-- ==== Sys2Proof/Laws/Outcomes.lean ====
section
/-! SUPPORT. How the shared operations answer: each gives a next state, and this is all of it. -/

namespace Sys2Proof.Machine

variable {s t : State}

/-- An operation on the decoder half leaves the parameters, the receiver half and the ports alone (rule R20). -/
theorem onDecoder_eq_next (f : Config → Decoder → Decoder) :
    onDecoder f s = .next t ↔ t = { s with dec := f s.cfg s.dec, out := {} } := by
  simp [onDecoder, eq_comm]

/-- An operation on the receiver half leaves the parameters, the decoder half and the ports alone (rule R20). -/
theorem onReceiver_eq_next (f : Receiver → Receiver) :
    onReceiver f s = .next t ↔ t = { s with rcv := f s.rcv, out := {} } := by
  simp [onReceiver, eq_comm]

/-- A transport call changes no register. -/
theorem callsOnly_eq_next (calls : List Call) : callsOnly calls s = .next t ↔ t = { s with out := { calls := calls } } := by
  simp [callsOnly, eq_comm]

/-- A packet changes the decoder half and gives the two outputs of rule R426. -/
theorem runCmd_eq_next (cmd : Cmd) :
    runCmd cmd s = .next t ↔
      t = { s with
        dec := (dccPacket s.cfg cmd s.dec).1
        out := { cmdOut := some cmd, responseTriggered := some (dccPacket s.cfg cmd s.dec).2 } } := by
  simp [runCmd, eq_comm]

/-- A read changes the receiver half and gives the message list and its calls (rule R426). -/
theorem readBytes_eq_next (bytes : List Byte) (calls : List Call) :
    readBytes bytes calls s = .next t ↔
      t = { s with
        rcv := (rxRead s.cfg bytes s.rcv).1
        out := { messages := some (rxRead s.cfg bytes s.rcv).2, calls := calls } } := by
  simp [readBytes, eq_comm]

theorem readLine_eq_readBytes (bytes : List Byte) :
    readLine bytes s = readBytes bytes (pollCalls (roundOf bytes)) s :=
  rfl

theorem ignored_eq_next : ignored s = .next t ↔ t = { s with out := {} } := by
  simp [ignored, eq_comm]

/-! ### Taking a trigger -/

/-- What taking the first trigger of a class does: the earlier ones are of other classes, the others keep their order. -/
theorem takeClass_eq_some {c : Nat} {port waiting : List Trigger} {u : Trigger} (h : takeClass c port = some (u, waiting)) :
    ∃ before later, port = before ++ u :: later ∧ waiting = before ++ later ∧ triggerClass u = c ∧
      ∀ x ∈ before, triggerClass x ≠ c := by
  induction port generalizing waiting with
  | nil => cases h
  | cons x rest ih =>
    rw [takeClass] at h
    split at h
    · next hx =>
      cases h
      exact ⟨[], rest, rfl, rfl, hx, by simp⟩
    · next hx =>
      split at h
      · next y others hr =>
        cases h
        obtain ⟨before, later, rfl, rfl, hc, hb⟩ := ih hr
        exact ⟨x :: before, later, rfl, rfl, hc, by simpa [hx] using hb⟩
      · cases h

/-- Nothing is taken only where no trigger of the class waits. -/
theorem takeClass_eq_none {c : Nat} {port : List Trigger} :
    takeClass c port = none ↔ ∀ x ∈ port, triggerClass x ≠ c := by
  induction port with
  | nil => simp [takeClass]
  | cons x rest ih =>
    rw [takeClass]
    split
    · next hx => simp [hx]
    · next hx =>
      cases hr : takeClass c rest with
      | none => simpa [hx] using ih.1 hr
      | some p => simpa [hx, hr] using ih.not.1 (by simp [hr])

/-- The classes are 0 to 3. -/
theorem triggerClass_lt (t : Trigger) : triggerClass t < 4 := by
  cases t <;> simp only [triggerClass] <;> (try split) <;> omega

end Sys2Proof.Machine
end

