-- ==== Sys2Proof/Laws/State.lean ====
section
/-! SUPPORT. The fields of the state after each named update: which fields an update leaves alone, and what it puts in
the others. -/

namespace Sys2Proof.Machine

section Ports

variable (t : Trigger) (s : State)

@[simp] theorem presentOnly_cfg : (presentOnly t s).cfg = s.cfg := rfl
@[simp] theorem presentOnly_dec : (presentOnly t s).dec = s.dec := rfl
@[simp] theorem presentOnly_rcv : (presentOnly t s).rcv = s.rcv := rfl
@[simp] theorem presentOnly_port : (presentOnly t s).port = [t] := rfl
@[simp] theorem presentOnly_out : (presentOnly t s).out = s.out := rfl
@[simp] theorem present_cfg : (present t s).cfg = s.cfg := rfl
@[simp] theorem present_dec : (present t s).dec = s.dec := rfl
@[simp] theorem present_rcv : (present t s).rcv = s.rcv := rfl
@[simp] theorem present_port : (present t s).port = s.port ++ [t] := rfl
@[simp] theorem present_out : (present t s).out = s.out := rfl

end Ports

section Receivers

variable (r : Receiver)

@[simp] theorem rxClear_rxContext : (rxClear r).rxContext = r.rxContext := rfl
@[simp] theorem rxClear_rxState : (rxClear r).rxState = .idle := rfl
@[simp] theorem rxClear_rxAcc : (rxClear r).rxAcc = [] := rfl
@[simp] theorem rxClear_rxTotal : (rxClear r).rxTotal = r.rxTotal := rfl
@[simp] theorem rxClear_rxAdrHigh : (rxClear r).rxAdrHigh = r.rxAdrHigh := rfl
@[simp] theorem rxClear_rxExpectDs : (rxClear r).rxExpectDs = r.rxExpectDs := rfl
@[simp] theorem rxClear_rxExpectDsNum : (rxClear r).rxExpectDsNum = r.rxExpectDsNum := rfl

end Receivers

section Decoders

variable (cfg : Config) (ch : Channel) (e : Entry) (cmd : Cmd) (d : Decoder)

@[simp] theorem flush_address : (flush d).address = d.address := rfl
@[simp] theorem flush_addrLong : (flush d).addrLong = d.addrLong := rfl
@[simp] theorem flush_mfgId : (flush d).mfgId = d.mfgId := rfl
@[simp] theorem flush_productId : (flush d).productId = d.productId := rfl
@[simp] theorem flush_decoderClass : (flush d).decoderClass = d.decoderClass := rfl
@[simp] theorem flush_statusKind : (flush d).statusKind = d.statusKind := rfl
@[simp] theorem flush_extInfoEnabled : (flush d).extInfoEnabled = d.extInfoEnabled := rfl
@[simp] theorem flush_extInfo : (flush d).extInfo = d.extInfo := rfl
@[simp] theorem flush_extType : (flush d).extType = d.extType := rfl
@[simp] theorem flush_extPosition : (flush d).extPosition = d.extPosition := rfl
@[simp] theorem flush_dsFlags : (flush d).dsFlags = d.dsFlags := rfl
@[simp] theorem flush_dsCount : (flush d).dsCount = d.dsCount := rfl
@[simp] theorem flush_dsCaps : (flush d).dsCaps = d.dsCaps := rfl
@[simp] theorem flush_logonState : (flush d).logonState = d.logonState := rfl
@[simp] theorem flush_backoffCounter : (flush d).backoffCounter = d.backoffCounter := rfl
@[simp] theorem flush_backoffValue : (flush d).backoffValue = d.backoffValue := rfl
@[simp] theorem flush_ch1BroadcastEnabled : (flush d).ch1BroadcastEnabled = d.ch1BroadcastEnabled := rfl
@[simp] theorem flush_accessoryMask : (flush d).accessoryMask = d.accessoryMask := rfl
@[simp] theorem flush_cvAutoActive : (flush d).cvAutoActive = d.cvAutoActive := rfl
@[simp] theorem flush_cvCursor : (flush d).cvCursor = d.cvCursor := rfl
@[simp] theorem flush_rotIndex : (flush d).rotIndex = d.rotIndex := rfl
@[simp] theorem flush_uptimeS : (flush d).uptimeS = d.uptimeS := rfl
@[simp] theorem flush_ch1Q : (flush d).ch1Q = d.ch1Q.drop 1 := rfl
@[simp] theorem flush_ch2Q : (flush d).ch2Q = [] := rfl
@[simp] theorem flush_cv : (flush d).cv = d.cv := rfl
@[simp] theorem flush_ds : (flush d).ds = d.ds := rfl
@[simp] theorem toggleCvAuto_address : (toggleCvAuto d).address = d.address := rfl
@[simp] theorem toggleCvAuto_addrLong : (toggleCvAuto d).addrLong = d.addrLong := rfl
@[simp] theorem toggleCvAuto_mfgId : (toggleCvAuto d).mfgId = d.mfgId := rfl
@[simp] theorem toggleCvAuto_productId : (toggleCvAuto d).productId = d.productId := rfl
@[simp] theorem toggleCvAuto_decoderClass : (toggleCvAuto d).decoderClass = d.decoderClass := rfl
@[simp] theorem toggleCvAuto_statusKind : (toggleCvAuto d).statusKind = d.statusKind := rfl
@[simp] theorem toggleCvAuto_extInfoEnabled : (toggleCvAuto d).extInfoEnabled = d.extInfoEnabled := rfl
@[simp] theorem toggleCvAuto_extInfo : (toggleCvAuto d).extInfo = d.extInfo := rfl
@[simp] theorem toggleCvAuto_extType : (toggleCvAuto d).extType = d.extType := rfl
@[simp] theorem toggleCvAuto_extPosition : (toggleCvAuto d).extPosition = d.extPosition := rfl
@[simp] theorem toggleCvAuto_dsFlags : (toggleCvAuto d).dsFlags = d.dsFlags := rfl
@[simp] theorem toggleCvAuto_dsCount : (toggleCvAuto d).dsCount = d.dsCount := rfl
@[simp] theorem toggleCvAuto_dsCaps : (toggleCvAuto d).dsCaps = d.dsCaps := rfl
@[simp] theorem toggleCvAuto_logonState : (toggleCvAuto d).logonState = d.logonState := rfl
@[simp] theorem toggleCvAuto_backoffCounter : (toggleCvAuto d).backoffCounter = d.backoffCounter := rfl
@[simp] theorem toggleCvAuto_backoffValue : (toggleCvAuto d).backoffValue = d.backoffValue := rfl
@[simp] theorem toggleCvAuto_ch1BroadcastEnabled : (toggleCvAuto d).ch1BroadcastEnabled = d.ch1BroadcastEnabled := rfl
@[simp] theorem toggleCvAuto_accessoryMask : (toggleCvAuto d).accessoryMask = d.accessoryMask := rfl
@[simp] theorem toggleCvAuto_rotIndex : (toggleCvAuto d).rotIndex = d.rotIndex := rfl
@[simp] theorem toggleCvAuto_uptimeS : (toggleCvAuto d).uptimeS = d.uptimeS := rfl
@[simp] theorem toggleCvAuto_ch1Q : (toggleCvAuto d).ch1Q = d.ch1Q := rfl
@[simp] theorem toggleCvAuto_ch2Q : (toggleCvAuto d).ch2Q = d.ch2Q := rfl
@[simp] theorem toggleCvAuto_cv : (toggleCvAuto d).cv = d.cv := rfl
@[simp] theorem toggleCvAuto_ds : (toggleCvAuto d).ds = d.ds := rfl
@[simp] theorem enqueue_address : (enqueue cfg ch e d).address = d.address := by
  cases ch <;> simp only [enqueue] <;> split <;> rfl
@[simp] theorem enqueue_addrLong : (enqueue cfg ch e d).addrLong = d.addrLong := by
  cases ch <;> simp only [enqueue] <;> split <;> rfl
@[simp] theorem enqueue_mfgId : (enqueue cfg ch e d).mfgId = d.mfgId := by
  cases ch <;> simp only [enqueue] <;> split <;> rfl
@[simp] theorem enqueue_productId : (enqueue cfg ch e d).productId = d.productId := by
  cases ch <;> simp only [enqueue] <;> split <;> rfl
@[simp] theorem enqueue_decoderClass : (enqueue cfg ch e d).decoderClass = d.decoderClass := by
  cases ch <;> simp only [enqueue] <;> split <;> rfl
@[simp] theorem enqueue_statusKind : (enqueue cfg ch e d).statusKind = d.statusKind := by
  cases ch <;> simp only [enqueue] <;> split <;> rfl
@[simp] theorem enqueue_extInfoEnabled : (enqueue cfg ch e d).extInfoEnabled = d.extInfoEnabled := by
  cases ch <;> simp only [enqueue] <;> split <;> rfl
@[simp] theorem enqueue_extInfo : (enqueue cfg ch e d).extInfo = d.extInfo := by
  cases ch <;> simp only [enqueue] <;> split <;> rfl
@[simp] theorem enqueue_extType : (enqueue cfg ch e d).extType = d.extType := by
  cases ch <;> simp only [enqueue] <;> split <;> rfl
@[simp] theorem enqueue_extPosition : (enqueue cfg ch e d).extPosition = d.extPosition := by
  cases ch <;> simp only [enqueue] <;> split <;> rfl
@[simp] theorem enqueue_dsFlags : (enqueue cfg ch e d).dsFlags = d.dsFlags := by
  cases ch <;> simp only [enqueue] <;> split <;> rfl
@[simp] theorem enqueue_dsCount : (enqueue cfg ch e d).dsCount = d.dsCount := by
  cases ch <;> simp only [enqueue] <;> split <;> rfl
@[simp] theorem enqueue_dsCaps : (enqueue cfg ch e d).dsCaps = d.dsCaps := by
  cases ch <;> simp only [enqueue] <;> split <;> rfl
@[simp] theorem enqueue_logonState : (enqueue cfg ch e d).logonState = d.logonState := by
  cases ch <;> simp only [enqueue] <;> split <;> rfl
@[simp] theorem enqueue_backoffCounter : (enqueue cfg ch e d).backoffCounter = d.backoffCounter := by
  cases ch <;> simp only [enqueue] <;> split <;> rfl
@[simp] theorem enqueue_backoffValue : (enqueue cfg ch e d).backoffValue = d.backoffValue := by
  cases ch <;> simp only [enqueue] <;> split <;> rfl
@[simp] theorem enqueue_ch1BroadcastEnabled : (enqueue cfg ch e d).ch1BroadcastEnabled = d.ch1BroadcastEnabled := by
  cases ch <;> simp only [enqueue] <;> split <;> rfl
@[simp] theorem enqueue_accessoryMask : (enqueue cfg ch e d).accessoryMask = d.accessoryMask := by
  cases ch <;> simp only [enqueue] <;> split <;> rfl
@[simp] theorem enqueue_cvAutoActive : (enqueue cfg ch e d).cvAutoActive = d.cvAutoActive := by
  cases ch <;> simp only [enqueue] <;> split <;> rfl
@[simp] theorem enqueue_cvCursor : (enqueue cfg ch e d).cvCursor = d.cvCursor := by
  cases ch <;> simp only [enqueue] <;> split <;> rfl
@[simp] theorem enqueue_rotIndex : (enqueue cfg ch e d).rotIndex = d.rotIndex := by
  cases ch <;> simp only [enqueue] <;> split <;> rfl
@[simp] theorem enqueue_uptimeS : (enqueue cfg ch e d).uptimeS = d.uptimeS := by
  cases ch <;> simp only [enqueue] <;> split <;> rfl
@[simp] theorem enqueue_cv : (enqueue cfg ch e d).cv = d.cv := by
  cases ch <;> simp only [enqueue] <;> split <;> rfl
@[simp] theorem enqueue_ds : (enqueue cfg ch e d).ds = d.ds := by
  cases ch <;> simp only [enqueue] <;> split <;> rfl
@[simp] theorem enqueueSplit_address : (enqueueSplit cfg e d).address = d.address := by
  simp only [enqueueSplit]; split <;> simp
@[simp] theorem enqueueSplit_addrLong : (enqueueSplit cfg e d).addrLong = d.addrLong := by
  simp only [enqueueSplit]; split <;> simp
@[simp] theorem enqueueSplit_mfgId : (enqueueSplit cfg e d).mfgId = d.mfgId := by
  simp only [enqueueSplit]; split <;> simp
@[simp] theorem enqueueSplit_productId : (enqueueSplit cfg e d).productId = d.productId := by
  simp only [enqueueSplit]; split <;> simp
@[simp] theorem enqueueSplit_decoderClass : (enqueueSplit cfg e d).decoderClass = d.decoderClass := by
  simp only [enqueueSplit]; split <;> simp
@[simp] theorem enqueueSplit_statusKind : (enqueueSplit cfg e d).statusKind = d.statusKind := by
  simp only [enqueueSplit]; split <;> simp
@[simp] theorem enqueueSplit_extInfoEnabled : (enqueueSplit cfg e d).extInfoEnabled = d.extInfoEnabled := by
  simp only [enqueueSplit]; split <;> simp
@[simp] theorem enqueueSplit_extInfo : (enqueueSplit cfg e d).extInfo = d.extInfo := by
  simp only [enqueueSplit]; split <;> simp
@[simp] theorem enqueueSplit_extType : (enqueueSplit cfg e d).extType = d.extType := by
  simp only [enqueueSplit]; split <;> simp
@[simp] theorem enqueueSplit_extPosition : (enqueueSplit cfg e d).extPosition = d.extPosition := by
  simp only [enqueueSplit]; split <;> simp
@[simp] theorem enqueueSplit_dsFlags : (enqueueSplit cfg e d).dsFlags = d.dsFlags := by
  simp only [enqueueSplit]; split <;> simp
@[simp] theorem enqueueSplit_dsCount : (enqueueSplit cfg e d).dsCount = d.dsCount := by
  simp only [enqueueSplit]; split <;> simp
@[simp] theorem enqueueSplit_dsCaps : (enqueueSplit cfg e d).dsCaps = d.dsCaps := by
  simp only [enqueueSplit]; split <;> simp
@[simp] theorem enqueueSplit_logonState : (enqueueSplit cfg e d).logonState = d.logonState := by
  simp only [enqueueSplit]; split <;> simp
@[simp] theorem enqueueSplit_backoffCounter : (enqueueSplit cfg e d).backoffCounter = d.backoffCounter := by
  simp only [enqueueSplit]; split <;> simp
@[simp] theorem enqueueSplit_backoffValue : (enqueueSplit cfg e d).backoffValue = d.backoffValue := by
  simp only [enqueueSplit]; split <;> simp
@[simp] theorem enqueueSplit_ch1BroadcastEnabled : (enqueueSplit cfg e d).ch1BroadcastEnabled = d.ch1BroadcastEnabled := by
  simp only [enqueueSplit]; split <;> simp
@[simp] theorem enqueueSplit_accessoryMask : (enqueueSplit cfg e d).accessoryMask = d.accessoryMask := by
  simp only [enqueueSplit]; split <;> simp
@[simp] theorem enqueueSplit_cvAutoActive : (enqueueSplit cfg e d).cvAutoActive = d.cvAutoActive := by
  simp only [enqueueSplit]; split <;> simp
@[simp] theorem enqueueSplit_cvCursor : (enqueueSplit cfg e d).cvCursor = d.cvCursor := by
  simp only [enqueueSplit]; split <;> simp
@[simp] theorem enqueueSplit_rotIndex : (enqueueSplit cfg e d).rotIndex = d.rotIndex := by
  simp only [enqueueSplit]; split <;> simp
@[simp] theorem enqueueSplit_uptimeS : (enqueueSplit cfg e d).uptimeS = d.uptimeS := by
  simp only [enqueueSplit]; split <;> simp
@[simp] theorem enqueueSplit_cv : (enqueueSplit cfg e d).cv = d.cv := by
  simp only [enqueueSplit]; split <;> simp
@[simp] theorem enqueueSplit_ds : (enqueueSplit cfg e d).ds = d.ds := by
  simp only [enqueueSplit]; split <;> simp
@[simp] theorem clearLatch_address : (clearLatch cmd d).address = d.address := by
  simp only [clearLatch]; split <;> rfl
@[simp] theorem clearLatch_addrLong : (clearLatch cmd d).addrLong = d.addrLong := by
  simp only [clearLatch]; split <;> rfl
@[simp] theorem clearLatch_mfgId : (clearLatch cmd d).mfgId = d.mfgId := by
  simp only [clearLatch]; split <;> rfl
@[simp] theorem clearLatch_productId : (clearLatch cmd d).productId = d.productId := by
  simp only [clearLatch]; split <;> rfl
@[simp] theorem clearLatch_decoderClass : (clearLatch cmd d).decoderClass = d.decoderClass := by
  simp only [clearLatch]; split <;> rfl
@[simp] theorem clearLatch_statusKind : (clearLatch cmd d).statusKind = d.statusKind := by
  simp only [clearLatch]; split <;> rfl
@[simp] theorem clearLatch_extInfoEnabled : (clearLatch cmd d).extInfoEnabled = d.extInfoEnabled := by
  simp only [clearLatch]; split <;> rfl
@[simp] theorem clearLatch_extInfo : (clearLatch cmd d).extInfo = d.extInfo := by
  simp only [clearLatch]; split <;> rfl
@[simp] theorem clearLatch_extType : (clearLatch cmd d).extType = d.extType := by
  simp only [clearLatch]; split <;> rfl
@[simp] theorem clearLatch_extPosition : (clearLatch cmd d).extPosition = d.extPosition := by
  simp only [clearLatch]; split <;> rfl
@[simp] theorem clearLatch_dsFlags : (clearLatch cmd d).dsFlags = d.dsFlags := by
  simp only [clearLatch]; split <;> rfl
@[simp] theorem clearLatch_dsCount : (clearLatch cmd d).dsCount = d.dsCount := by
  simp only [clearLatch]; split <;> rfl
@[simp] theorem clearLatch_dsCaps : (clearLatch cmd d).dsCaps = d.dsCaps := by
  simp only [clearLatch]; split <;> rfl
@[simp] theorem clearLatch_logonState : (clearLatch cmd d).logonState = d.logonState := by
  simp only [clearLatch]; split <;> rfl
@[simp] theorem clearLatch_backoffCounter : (clearLatch cmd d).backoffCounter = d.backoffCounter := by
  simp only [clearLatch]; split <;> rfl
@[simp] theorem clearLatch_backoffValue : (clearLatch cmd d).backoffValue = d.backoffValue := by
  simp only [clearLatch]; split <;> rfl
@[simp] theorem clearLatch_accessoryMask : (clearLatch cmd d).accessoryMask = d.accessoryMask := by
  simp only [clearLatch]; split <;> rfl
@[simp] theorem clearLatch_cvAutoActive : (clearLatch cmd d).cvAutoActive = d.cvAutoActive := by
  simp only [clearLatch]; split <;> rfl
@[simp] theorem clearLatch_cvCursor : (clearLatch cmd d).cvCursor = d.cvCursor := by
  simp only [clearLatch]; split <;> rfl
@[simp] theorem clearLatch_rotIndex : (clearLatch cmd d).rotIndex = d.rotIndex := by
  simp only [clearLatch]; split <;> rfl
@[simp] theorem clearLatch_uptimeS : (clearLatch cmd d).uptimeS = d.uptimeS := by
  simp only [clearLatch]; split <;> rfl
@[simp] theorem clearLatch_ch1Q : (clearLatch cmd d).ch1Q = d.ch1Q := by
  simp only [clearLatch]; split <;> rfl
@[simp] theorem clearLatch_ch2Q : (clearLatch cmd d).ch2Q = d.ch2Q := by
  simp only [clearLatch]; split <;> rfl
@[simp] theorem clearLatch_cv : (clearLatch cmd d).cv = d.cv := by
  simp only [clearLatch]; split <;> rfl
@[simp] theorem clearLatch_ds : (clearLatch cmd d).ds = d.ds := by
  simp only [clearLatch]; split <;> rfl

@[simp] theorem clearLatch_ch1BroadcastEnabled :
    (clearLatch cmd d).ch1BroadcastEnabled = (d.ch1BroadcastEnabled && !own cmd d) := by
  simp only [clearLatch]; split <;> simp_all

end Decoders

end Sys2Proof.Machine
end

