-- ==== Sys2Proof/Laws/Stores.lean ====
section
/-! SUPPORT. The stores (20_memory.md): what each store operation answers, and that each keeps its store well formed. -/

namespace Sys2Proof.Machine

/-! ### Channel queues -/

theorem enqueue_one_of_lt {cfg : Config} {d : Decoder} (e : Entry) (h : d.ch1Q.length < cfg.ch1Depth) :
    enqueue cfg .one e d = { d with ch1Q := d.ch1Q ++ [e] } :=
  if_neg (by simp [ch1Full, h])

theorem enqueue_one_of_full {cfg : Config} {d : Decoder} (e : Entry) (h : cfg.ch1Depth ≤ d.ch1Q.length) :
    enqueue cfg .one e d = d :=
  if_pos (by simp [ch1Full, h])

theorem enqueue_two_of_lt {cfg : Config} {d : Decoder} (e : Entry) (h : d.ch2Q.length < cfg.ch2Depth) :
    enqueue cfg .two e d = { d with ch2Q := d.ch2Q ++ [e] } :=
  if_neg (by simp [ch2Full, h])

theorem enqueue_two_of_full {cfg : Config} {d : Decoder} (e : Entry) (h : cfg.ch2Depth ≤ d.ch2Q.length) :
    enqueue cfg .two e d = d :=
  if_pos (by simp [ch2Full, h])

/-- What an enqueue does (rule R222): one queue grows by the entry, or nothing changes. -/
theorem enqueue_cases (cfg : Config) (ch : Channel) (e : Entry) (d : Decoder) :
    enqueue cfg ch e d = d ∨
      (ch = .one ∧ d.ch1Q.length < cfg.ch1Depth ∧ enqueue cfg ch e d = { d with ch1Q := d.ch1Q ++ [e] }) ∨
      (ch = .two ∧ d.ch2Q.length < cfg.ch2Depth ∧ enqueue cfg ch e d = { d with ch2Q := d.ch2Q ++ [e] }) := by
  cases ch
  · rcases Nat.lt_or_ge d.ch1Q.length cfg.ch1Depth with h | h
    · exact .inr (.inl ⟨rfl, h, enqueue_one_of_lt e h⟩)
    · exact .inl (enqueue_one_of_full e h)
  · rcases Nat.lt_or_ge d.ch2Q.length cfg.ch2Depth with h | h
    · exact .inr (.inr ⟨rfl, h, enqueue_two_of_lt e h⟩)
    · exact .inl (enqueue_two_of_full e h)

theorem enqueueSplit_of_lt {cfg : Config} {d : Decoder} (e : Entry) (h1 : d.ch1Q.length < cfg.ch1Depth)
    (h2 : d.ch2Q.length < cfg.ch2Depth) :
    enqueueSplit cfg e d = { d with ch1Q := d.ch1Q ++ [e.take 2], ch2Q := d.ch2Q ++ [e.drop 2] } := by
  rw [enqueueSplit, if_neg (by simp [ch1Full, ch2Full, h1, h2]), enqueue_one_of_lt _ h1]
  exact enqueue_two_of_lt (d := { d with ch1Q := d.ch1Q ++ [e.take 2] }) _ h2

theorem enqueueSplit_of_full {cfg : Config} {d : Decoder} (e : Entry)
    (h : cfg.ch1Depth ≤ d.ch1Q.length ∨ cfg.ch2Depth ≤ d.ch2Q.length) : enqueueSplit cfg e d = d :=
  if_pos (by simpa [ch1Full, ch2Full] using h)

/-- What a split enqueue does (rule R224): both queues grow, or nothing changes. -/
theorem enqueueSplit_cases (cfg : Config) (e : Entry) (d : Decoder) :
    enqueueSplit cfg e d = d ∨
      (d.ch1Q.length < cfg.ch1Depth ∧ d.ch2Q.length < cfg.ch2Depth ∧
        enqueueSplit cfg e d = { d with ch1Q := d.ch1Q ++ [e.take 2], ch2Q := d.ch2Q ++ [e.drop 2] }) := by
  by_cases h : d.ch1Q.length < cfg.ch1Depth ∧ d.ch2Q.length < cfg.ch2Depth
  · exact .inr ⟨h.1, h.2, enqueueSplit_of_lt e h.1 h.2⟩
  · exact .inl (enqueueSplit_of_full e (by omega))

/-- An enqueue of a well-formed entry keeps the queues well formed. -/
theorem enqueue_queuesOk {cfg : Config} {ch : Channel} {e : Entry} {d : Decoder} (h : Safety.QueuesOk cfg d)
    (he : Safety.EntryOk cfg e) : Safety.QueuesOk cfg (enqueue cfg ch e d) := by
  obtain ⟨h1, h2, h3, h4⟩ := h
  rcases enqueue_cases cfg ch e d with eq | ⟨-, hl, eq⟩ | ⟨-, hl, eq⟩ <;> rw [eq]
  · exact ⟨h1, h2, h3, h4⟩
  · refine ⟨by simpa using hl, h2, fun x hx => ?_, h4⟩
    rcases List.mem_append.1 hx with hx | hx
    · exact h3 x hx
    · rwa [List.mem_singleton.1 hx]
  · refine ⟨h1, by simpa using hl, h3, fun x hx => ?_⟩
    rcases List.mem_append.1 hx with hx | hx
    · exact h4 x hx
    · rwa [List.mem_singleton.1 hx]

/-- A split enqueue of two well-formed halves keeps the queues well formed. -/
theorem enqueueSplit_queuesOk {cfg : Config} {e : Entry} {d : Decoder} (h : Safety.QueuesOk cfg d)
    (h1 : Safety.EntryOk cfg (e.take 2)) (h2 : Safety.EntryOk cfg (e.drop 2)) :
    Safety.QueuesOk cfg (enqueueSplit cfg e d) := by
  unfold enqueueSplit
  split
  · exact h
  · exact enqueue_queuesOk (enqueue_queuesOk h h1) h2

/-! ### The CV map -/

@[simp] theorem cvReplace_keys (key : BitVec 24) (value : Byte) (m : CvMap) :
    (cvReplace key value m).map (·.1) = m.map (·.1) := by
  induction m with
  | nil => rfl
  | cons p rest ih =>
    rw [cvReplace]
    split
    · rfl
    · simpa using ih

@[simp] theorem cvReplace_length (key : BitVec 24) (value : Byte) (m : CvMap) :
    (cvReplace key value m).length = m.length := by
  rw [← List.length_map (·.1), cvReplace_keys, List.length_map]

/-- A lookup answers exactly for the keys of the map (rule R72). -/
theorem cvLookup_isSome (key : BitVec 24) (m : CvMap) : (cvLookup key m).isSome ↔ key ∈ m.map (·.1) := by
  induction m with
  | nil => simp [cvLookup]
  | cons p rest ih =>
    rw [cvLookup, List.map_cons, List.mem_cons, ← ih]
    split
    · next h => simp [h]
    · next h => simp [Ne.symm h]

theorem cvLookup_cvReplace_self {key : BitVec 24} {m : CvMap} (value : Byte) (h : key ∈ m.map (·.1)) :
    cvLookup key (cvReplace key value m) = some value := by
  induction m with
  | nil => simp at h
  | cons p rest ih =>
    rw [cvReplace]
    split
    · simp [cvLookup, *]
    · rename_i hne
      rw [cvLookup, if_neg hne]
      exact ih (by simpa [Ne.symm hne] using h)

theorem cvLookup_cvReplace_of_ne {key k : BitVec 24} (value : Byte) (m : CvMap) (h : k ≠ key) :
    cvLookup k (cvReplace key value m) = cvLookup k m := by
  induction m with
  | nil => rfl
  | cons p rest ih =>
    rw [cvReplace]
    split
    · rename_i he
      have : p.1 ≠ k := fun e => h (e ▸ he)
      simp [cvLookup, this]
    · simp only [cvLookup, ih]

theorem cvLookup_append_new {key : BitVec 24} {m : CvMap} (value : Byte) (h : key ∉ m.map (·.1)) (k : BitVec 24) :
    cvLookup k (m ++ [(key, value)]) = if k = key then some value else cvLookup k m := by
  induction m with
  | nil => simp [cvLookup, eq_comm]
  | cons p rest ih =>
    have hp : p.1 ≠ key := by rintro rfl; simp at h
    have hr : key ∉ rest.map (·.1) := by simp_all
    simp only [List.cons_append, cvLookup, ih hr]
    by_cases hk : p.1 = k
    · subst hk; simp [hp]
    · simp [hk]

/-- What `cv_set` does (rule R385). -/
theorem cvSet_cases (cfg : Config) (key : BitVec 24) (value : Byte) (m : CvMap) :
    (key ∈ m.map (·.1) ∧ cvSet cfg key value m = cvReplace key value m) ∨
      (key ∉ m.map (·.1) ∧ m.length < cfg.cvCapacity ∧ cvSet cfg key value m = m ++ [(key, value)]) ∨
      (key ∉ m.map (·.1) ∧ cfg.cvCapacity ≤ m.length ∧ cvSet cfg key value m = m) := by
  by_cases hk : key ∈ m.map (·.1)
  · refine .inl ⟨hk, ?_⟩
    rw [cvSet, if_pos]
    simpa using hk
  · have hn : ¬ (m.any fun p => p.1 == key) = true := by simpa using hk
    by_cases hl : m.length < cfg.cvCapacity
    · exact .inr (.inl ⟨hk, hl, by rw [cvSet, if_neg hn, if_pos hl]⟩)
    · exact .inr (.inr ⟨hk, by omega, by rw [cvSet, if_neg hn, if_neg hl]⟩)

/-- `cv_set` keeps the map's capacity and its keys distinct (rule R44), and never shortens it (rule R473). -/
theorem cvSet_wf {cfg : Config} {m : CvMap} (key : BitVec 24) (value : Byte) (hl : m.length ≤ cfg.cvCapacity)
    (hn : (m.map (·.1)).Nodup) :
    (cvSet cfg key value m).length ≤ cfg.cvCapacity ∧ ((cvSet cfg key value m).map (·.1)).Nodup ∧
      m.length ≤ (cvSet cfg key value m).length := by
  rcases cvSet_cases cfg key value m with ⟨-, e⟩ | ⟨hk, h, e⟩ | ⟨-, -, e⟩ <;> rw [e]
  · exact ⟨by simpa, by simpa, by simp⟩
  · refine ⟨by simpa using h, ?_, by simp⟩
    rw [List.map_append, List.nodup_append]
    refine ⟨hn, by simp, ?_⟩
    intro a ha b hb
    simp only [List.map_cons, List.map_nil, List.mem_singleton] at hb
    rintro rfl
    exact hk (hb ▸ ha)
  · exact ⟨hl, hn, le_refl _⟩

/-! ### The data-space store -/

@[simp] theorem dsReplace_nums (num : Byte) (bytes : List Byte) (store : List DsRecord) :
    (dsReplace num bytes store).map (·.num) = store.map (·.num) := by
  induction store with
  | nil => rfl
  | cons r rest ih =>
    rw [dsReplace]
    split
    · simp [*]
    · simpa using ih

@[simp] theorem dsReplace_length (num : Byte) (bytes : List Byte) (store : List DsRecord) :
    (dsReplace num bytes store).length = store.length := by
  rw [← List.length_map (·.num), dsReplace_nums, List.length_map]

theorem mem_dsReplace {num : Byte} {bytes : List Byte} {store : List DsRecord} {r : DsRecord}
    (h : r ∈ dsReplace num bytes store) : r ∈ store ∨ r.bytes = bytes := by
  induction store with
  | nil => simp [dsReplace] at h
  | cons x rest ih =>
    rw [dsReplace] at h
    split at h
    · rcases List.mem_cons.1 h with rfl | h
      · exact .inr rfl
      · exact .inl (.tail _ h)
    · rcases List.mem_cons.1 h with rfl | h
      · exact .inl (.head _)
      · exact (ih h).imp (.tail _) id

theorem dsFind_dsReplace_self {num : Byte} {store : List DsRecord} (bytes : List Byte)
    (h : num ∈ store.map (·.num)) : dsFind num (dsReplace num bytes store) = some bytes := by
  induction store with
  | nil => simp at h
  | cons r rest ih =>
    rw [dsReplace]
    split
    · simp [dsFind]
    · rename_i hne
      rw [dsFind, if_neg hne]
      exact ih (by simpa [Ne.symm hne] using h)

theorem dsFind_dsReplace_of_ne {num n : Byte} (bytes : List Byte) (store : List DsRecord) (h : n ≠ num) :
    dsFind n (dsReplace num bytes store) = dsFind n store := by
  induction store with
  | nil => rfl
  | cons r rest ih =>
    rw [dsReplace]
    split
    · rename_i he
      have h1 : r.num ≠ n := fun e => h (e ▸ he)
      simp [dsFind, h1, h.symm]
    · simp only [dsFind, ih]

theorem dsFind_append_new {num : Byte} {store : List DsRecord} (bytes : List Byte) (h : num ∉ store.map (·.num))
    (n : Byte) : dsFind n (store ++ [{ num := num, bytes := bytes }]) = if n = num then some bytes else dsFind n store := by
  induction store with
  | nil => simp [dsFind, eq_comm]
  | cons r rest ih =>
    have hp : r.num ≠ num := by rintro rfl; simp at h
    have hr : num ∉ rest.map (·.num) := by simp_all
    simp only [List.cons_append, dsFind, ih hr]
    by_cases hk : r.num = n
    · subst hk; simp [hp]
    · simp [hk]

/-- What `ds_set` does (rule R387). -/
theorem dsSet_cases (cfg : Config) (num : Byte) (bytes : List Byte) (store : List DsRecord) :
    dsSet cfg num bytes store = store ∨
      (bytes.length ≤ cfg.dsMaxLen ∧ num ∈ store.map (·.num) ∧ dsSet cfg num bytes store = dsReplace num bytes store) ∨
      (bytes.length ≤ cfg.dsMaxLen ∧ num ∉ store.map (·.num) ∧ store.length < cfg.dsCapacity ∧
        dsSet cfg num bytes store = store ++ [{ num := num, bytes := bytes }]) := by
  by_cases hb : cfg.dsMaxLen < bytes.length
  · exact .inl (by rw [dsSet, if_pos hb])
  · by_cases hk : num ∈ store.map (·.num)
    · refine .inr (.inl ⟨by omega, hk, ?_⟩)
      rw [dsSet, if_neg hb, if_pos]
      simpa using hk
    · have hn : ¬ (store.any fun r => r.num == num) = true := by simpa using hk
      by_cases hl : store.length < cfg.dsCapacity
      · exact .inr (.inr ⟨by omega, hk, hl, by rw [dsSet, if_neg hb, if_neg hn, if_pos hl]⟩)
      · exact .inl (by rw [dsSet, if_neg hb, if_neg hn, if_neg hl])

/-- `ds_set` keeps the store well formed (rule R45). -/
theorem dsSet_dsOk {cfg : Config} {d : Decoder} (num : Byte) (bytes : List Byte) (h : Safety.DsOk cfg d) :
    Safety.DsOk cfg { d with ds := dsSet cfg num bytes d.ds } := by
  obtain ⟨hl, hn, hb⟩ := h
  rcases dsSet_cases cfg num bytes d.ds with e | ⟨hlen, -, e⟩ | ⟨hlen, hk, hc, e⟩ <;> rw [e]
  · exact ⟨hl, hn, hb⟩
  · refine ⟨by simpa, by simpa, fun r hr => ?_⟩
    rcases mem_dsReplace hr with hr | rfl
    · exact hb r hr
    · exact hlen
  · refine ⟨by simpa using hc, ?_, fun r hr => ?_⟩
    · simp only [List.map_append, List.map_cons, List.map_nil]
      rw [List.nodup_append]
      refine ⟨hn, by simp, ?_⟩
      intro a ha b hb'
      rw [List.mem_singleton] at hb'
      rintro rfl
      exact hk (hb' ▸ ha)
    · rcases List.mem_append.1 hr with hr | hr
      · exact hb r hr
      · rwa [List.mem_singleton.1 hr]

/-- A slice is 1 to 16 bytes (rule R74). -/
theorem length_dsSlice {num : Byte} {off : Nat} {store : List DsRecord} {chunk : List Byte}
    (h : dsSlice num off store = some chunk) : 1 ≤ chunk.length ∧ chunk.length ≤ 16 := by
  rw [dsSlice] at h
  split at h
  · cases h
  · split at h
    · cases h
    · cases h
      simp [dsMaxPayload]
      omega

/-- The stores after reset are well formed. -/
theorem reset_storesOk :
    Safety.QueuesOk Config.default Decoder.reset ∧ Safety.CvOk Config.default Decoder.reset ∧
      Safety.DsOk Config.default Decoder.reset := by
  decide

end Sys2Proof.Machine
end

