-- ==== Sys2Proof/Laws/Packets.lean ====
section
/-! SUPPORT. What a send and what a DCC packet can do to the decoder half: the registers only configuration writes
stay, and the queues only grow (20_memory.md R85, R87; 44_decoder_fsm.md). -/

namespace Sys2Proof.Machine

/-- `d'` differs from `d` in no register or store that configuration alone writes, and its queues extend those of
`d`. -/
structure Extends (d d' : Decoder) : Prop where
  mfgId : d'.mfgId = d.mfgId
  productId : d'.productId = d.productId
  decoderClass : d'.decoderClass = d.decoderClass
  statusKind : d'.statusKind = d.statusKind
  extInfoEnabled : d'.extInfoEnabled = d.extInfoEnabled
  extInfo : d'.extInfo = d.extInfo
  extType : d'.extType = d.extType
  extPosition : d'.extPosition = d.extPosition
  dsFlags : d'.dsFlags = d.dsFlags
  dsCount : d'.dsCount = d.dsCount
  dsCaps : d'.dsCaps = d.dsCaps
  uptimeS : d'.uptimeS = d.uptimeS
  cv : d'.cv = d.cv
  ds : d'.ds = d.ds
  ch1Q : d.ch1Q <+: d'.ch1Q
  ch2Q : d.ch2Q <+: d'.ch2Q

namespace Extends

theorem refl (d : Decoder) : Extends d d := by
  constructor <;> rfl

theorem trans {a b c : Decoder} (h : Extends a b) (k : Extends b c) : Extends a c where
  mfgId := k.mfgId.trans h.mfgId
  productId := k.productId.trans h.productId
  decoderClass := k.decoderClass.trans h.decoderClass
  statusKind := k.statusKind.trans h.statusKind
  extInfoEnabled := k.extInfoEnabled.trans h.extInfoEnabled
  extInfo := k.extInfo.trans h.extInfo
  extType := k.extType.trans h.extType
  extPosition := k.extPosition.trans h.extPosition
  dsFlags := k.dsFlags.trans h.dsFlags
  dsCount := k.dsCount.trans h.dsCount
  dsCaps := k.dsCaps.trans h.dsCaps
  uptimeS := k.uptimeS.trans h.uptimeS
  cv := k.cv.trans h.cv
  ds := k.ds.trans h.ds
  ch1Q := h.ch1Q.trans k.ch1Q
  ch2Q := h.ch2Q.trans k.ch2Q

end Extends

theorem enqueue_extends (cfg : Config) (ch : Channel) (e : Entry) (d : Decoder) : Extends d (enqueue cfg ch e d) := by
  rcases enqueue_cases cfg ch e d with h | ⟨-, -, h⟩ | ⟨-, -, h⟩ <;> rw [h]
  · exact .refl d
  · exact { Extends.refl d with ch1Q := List.prefix_append _ _ }
  · exact { Extends.refl d with ch2Q := List.prefix_append _ _ }

theorem enqueueSplit_extends (cfg : Config) (e : Entry) (d : Decoder) : Extends d (enqueueSplit cfg e d) := by
  rcases enqueueSplit_cases cfg e d with h | ⟨-, -, h⟩ <;> rw [h]
  · exact .refl d
  · exact { Extends.refl d with ch1Q := List.prefix_append _ _, ch2Q := List.prefix_append _ _ }

theorem sendAddress_extends (cfg : Config) (a : BitVec 14) (long : Bool) (d : Decoder) :
    Extends d (sendAddress cfg a long d) :=
  { enqueue_extends cfg .one (rotationBytes cfg a long d) d with }

theorem clearLatch_extends (cmd : Cmd) (d : Decoder) : Extends d (clearLatch cmd d) := by
  unfold clearLatch
  split
  · exact { Extends.refl d with }
  · exact .refl d

theorem singulate_extends (cfg : Config) (d : Decoder) : Extends d (singulate cfg d).1 := by
  unfold singulate
  split
  · exact { enqueueSplit_extends cfg (wireDecoderUnique cfg d.mfgId d.productId) d with }
  · exact { Extends.refl d with }

theorem handleLogonEnable_extends (cfg : Config) (d : Decoder) : Extends d (handleLogonEnable cfg d).1 := by
  unfold handleLogonEnable
  cases d.logonState with
  | idle =>
    have h : Extends d { d with logonState := .waitingForLogon } := { Extends.refl d with }
    exact h.trans (singulate_extends cfg _)
  | waitingForLogon => exact singulate_extends cfg d
  | inSingulation => exact singulate_extends cfg d
  | announced => exact .refl d
  | registered => exact .refl d

theorem handleSelect_extends (mfg : BitVec 12) (uid : Word32) (d : Decoder) : Extends d (handleSelect mfg uid d).1 := by
  unfold handleSelect
  split
  · exact { Extends.refl d with }
  · exact .refl d

theorem handleLogonAssign_extends (cfg : Config) (mfg : BitVec 12) (uid : Word32) (a : BitVec 14) (d : Decoder) :
    Extends d (handleLogonAssign cfg mfg uid a d).1 := by
  unfold handleLogonAssign
  split
  · have h : Extends d { d with address := a, addrLong := decide (127 < a.toNat), logonState := .registered } :=
      { Extends.refl d with }
    exact h.trans (enqueueSplit_extends cfg _ _)
  · exact .refl d

theorem handlePomRead_extends (cfg : Config) (cv : BitVec 11) (d : Decoder) : Extends d (handlePomRead cfg cv d).1 := by
  unfold handlePomRead
  cases cvLookup (cv.setWidth 24) d.cv with
  | some v => exact enqueue_extends cfg .two _ d
  | none => exact .refl d

theorem handleAccessory_extends (cfg : Config) (activate : Bool) (output : BitVec 3) (d : Decoder) :
    Extends d (handleAccessory cfg activate output d).1 := by
  let d1 : Decoder := { d with accessoryMask := setOutput d.accessoryMask output activate }
  have h : Extends d d1 := { Extends.refl d with }
  unfold handleAccessory
  dsimp only
  split
  · exact h.trans (enqueue_extends cfg .two _ d1)
  · exact h.trans (enqueue_extends cfg .two _ d1)

theorem sendRerail_extends (cfg : Config) (seconds : BitVec 16) (d : Decoder) : Extends d (sendRerail cfg seconds d) := by
  unfold sendRerail
  split
  · exact .refl d
  · exact enqueue_extends cfg .two _ d

theorem toggleCvAuto_extends (d : Decoder) : Extends d (toggleCvAuto d) :=
  { Extends.refl d with }

theorem handleExtFunction_extends (cfg : Config) (form : AddrForm) (a : BitVec 14) (c : Byte) (d : Decoder) :
    Extends d (handleExtFunction cfg form a c d).1 := by
  unfold handleExtFunction
  split
  · exact (sendAddress_extends cfg _ _ d).trans (sendRerail_extends cfg _ _)
  · split
    · exact enqueue_extends cfg .two _ d
    · split
      · exact toggleCvAuto_extends d
      · exact .refl d

theorem handleDataSpaceRead_extends (cfg : Config) (num off : Byte) (d : Decoder) :
    Extends d (handleDataSpaceRead cfg num off d).1 := by
  unfold handleDataSpaceRead
  cases dsSlice num off.toNat d.ds with
  | none => exact .refl d
  | some chunk =>
    simp only [sendDataSpace]
    split
    · exact .refl d
    · exact enqueueSplit_extends cfg _ d

/-- What a handler can do (rule R323): it writes no register of configuration, and the queues only grow. -/
theorem handle_extends (cfg : Config) (cmd : Cmd) (d : Decoder) : Extends d (handle cfg cmd d).1 := by
  cases cmd with
  | none => exact .refl d
  | logonEnable => exact handleLogonEnable_extends cfg d
  | select => exact handleSelect_extends _ _ d
  | logonAssign => exact handleLogonAssign_extends cfg _ _ _ d
  | getDataStart => exact .refl d
  | getDataCont => exact .refl d
  | setData => exact .refl d
  | setDataEnd => exact .refl d
  | pomRead =>
    simp only [handle]
    split
    · exact handlePomRead_extends cfg _ d
    · exact .refl d
  | pomWrite => exact .refl d
  | pomWriteBit => exact .refl d
  | accessory =>
    simp only [handle]
    split
    · exact handleAccessory_extends cfg _ _ d
    · exact .refl d
  | function => exact .refl d
  | extFunction => exact handleExtFunction_extends cfg _ _ _ d
  | dataSpaceRead =>
    simp only [handle]
    split
    · exact handleDataSpaceRead_extends cfg _ _ d
    · exact .refl d

/-- What a packet can do (rule R320): it writes no register of configuration, and the queues only grow. -/
theorem dccPacket_extends (cfg : Config) (cmd : Cmd) (d : Decoder) : Extends d (dccPacket cfg cmd d).1 := by
  unfold dccPacket
  split
  · exact .refl d
  · have h := (clearLatch_extends cmd d).trans (handle_extends cfg cmd (clearLatch cmd d))
    unfold handleRecognised
    dsimp only
    split
    · exact h.trans (sendAddress_extends cfg _ _ _)
    · exact h

end Sys2Proof.Machine
end

