-- ==== Sys2Proof/Laws/PerInstr.lean ====
section
/-! SUPPORT. One law for every instruction: its encoding stands at the port, and under the code, that rules R112 to R118,
R104 and R120 give it. -/

namespace Sys2Proof.Laws.EncodesAtItsPort

/-- Where a trigger stands. -/
inductive Port where
  | resetInput
  | cutout
  | packet
  | host (code : Byte)
  | symbol
  | datagram (k : Kind)
deriving DecidableEq, Repr

/-- The port a trigger stands at. -/
def portOf (t : Trigger) : Port :=
  match t with
  | .resetInput => .resetInput
  | .cutout _ => .cutout
  | .dcc _ => .packet
  | .host code _ _ => .host code
  | .symbol _ => .symbol
  | .datagram k _ => .datagram k

/-- The port of each instruction, row by row (rules R104, R112 to R118, R120). -/
def expected (i : Instr) : Port :=
  match i with
  | .dccLogonEnable _ _ _ _ => .packet
  | .dccSelect _ _ _ _ _ => .packet
  | .dccLogonAssign _ _ _ _ _ _ => .packet
  | .dccGetDataStart _ => .packet
  | .dccGetDataCont _ => .packet
  | .dccSetData _ _ => .packet
  | .dccSetDataEnd _ _ => .packet
  | .dccPomReadBroadcast _ _ _ => .packet
  | .dccPomReadShort _ _ _ _ => .packet
  | .dccPomReadLong _ _ _ _ => .packet
  | .dccPomWriteBroadcast _ _ _ => .packet
  | .dccPomWriteShort _ _ _ _ => .packet
  | .dccPomWriteLong _ _ _ _ => .packet
  | .dccPomWriteBitBroadcast _ _ _ _ _ => .packet
  | .dccPomWriteBitShort _ _ _ _ _ _ => .packet
  | .dccPomWriteBitLong _ _ _ _ _ _ => .packet
  | .dccFunctionG1Broadcast _ _ => .packet
  | .dccFunctionG1Short _ _ _ => .packet
  | .dccFunctionG1Long _ _ _ => .packet
  | .dccFunctionG2F5Broadcast _ _ => .packet
  | .dccFunctionG2F5Short _ _ _ => .packet
  | .dccFunctionG2F5Long _ _ _ => .packet
  | .dccFunctionG2F9Broadcast _ _ => .packet
  | .dccFunctionG2F9Short _ _ _ => .packet
  | .dccFunctionG2F9Long _ _ _ => .packet
  | .dccExtFunctionBroadcast _ _ => .packet
  | .dccExtFunctionShort _ _ _ => .packet
  | .dccExtFunctionLong _ _ _ => .packet
  | .dccDataSpaceReadBroadcast _ _ _ => .packet
  | .dccDataSpaceReadShort _ _ _ _ => .packet
  | .dccDataSpaceReadLong _ _ _ _ => .packet
  | .dccAccessory _ _ _ _ _ => .packet
  | .dgPom _ => .datagram .pom
  | .dgAdrHigh _ => .datagram .adrHigh
  | .dgAdrLow _ => .datagram .adrLow
  | .dgExt _ _ => .datagram .ext
  | .dgStat4 _ => .datagram .stat4
  | .dgDrivingInfo _ => .datagram .drivingInfo
  | .dgBasicInfo _ => .datagram .basicInfo
  | .dgStat1 _ => .datagram .stat1
  | .dgTime _ _ => .datagram .time
  | .dgError _ => .datagram .error
  | .dgDyn _ _ => .datagram .dyn
  | .dgXpom0 _ _ _ _ => .datagram .xpom0
  | .dgXpom1 _ _ _ _ => .datagram .xpom1
  | .dgXpom2 _ _ _ _ => .datagram .xpom2
  | .dgXpom3 _ _ _ _ => .datagram .xpom3
  | .dgStat2 _ => .datagram .stat2
  | .dgCvAuto _ _ => .datagram .cvAuto
  | .dgBlock _ => .datagram .block
  | .dgDecoderState _ _ _ _ => .datagram .decoderState
  | .dgRerail _ => .datagram .rerail
  | .dgDecoderUnique _ _ => .datagram .decoderUnique
  | .dgSrq _ _ => .datagram .srq
  | .dgDataSpace _ _ => .datagram .dataSpace
  | .symAck1 => .symbol
  | .symAck2 => .symbol
  | .symNack => .symbol
  | .symData _ => .symbol
  | .opReset => .host 0x00
  | .opTxBegin => .host 0x01
  | .opTxEnd => .host 0x02
  | .opRxBegin => .host 0x03
  | .opRxEnd => .host 0x04
  | .opCvAutoTick => .host 0x05
  | .opSecondTick => .host 0x06
  | .opSendPom _ => .host 0x10
  | .opSendAddress _ _ => .host 0x11
  | .opSendDynamic _ _ => .host 0x12
  | .opSendXpom _ _ _ _ _ => .host 0x13
  | .opSendStatus1 _ => .host 0x14
  | .opSendStatus2 _ => .host 0x15
  | .opSendStatus4 _ => .host 0x16
  | .opSendTime _ _ => .host 0x17
  | .opSendError _ => .host 0x18
  | .opSendCvAuto _ _ => .host 0x19
  | .opSendDecoderUnique _ _ => .host 0x1A
  | .opSendDecoderState _ _ _ => .host 0x1B
  | .opSendRerail _ => .host 0x1C
  | .opSendServiceRequest _ _ => .host 0x1D
  | .opSendExt _ _ => .host 0x1E
  | .opSendDrivingInfo _ => .host 0x1F
  | .opSendBasicInfo _ => .host 0x20
  | .opSendBlock _ => .host 0x21
  | .opSendDataSpace _ _ => .host 0x22
  | .opSetAddress _ _ => .host 0x40
  | .opSetIdentity _ _ => .host 0x41
  | .opSetClass _ _ => .host 0x42
  | .opSetExtInfoEnabled _ => .host 0x43
  | .opSetExtInfo _ => .host 0x44
  | .opSetExtPosition _ _ => .host 0x45
  | .opSetDecoderStateFields _ _ _ => .host 0x46
  | .opCvSet _ _ => .host 0x47
  | .opCvClear => .host 0x48
  | .opDsSet _ _ => .host 0x49
  | .opDsClear => .host 0x4A
  | .opLogonReset => .host 0x4B
  | .opRxSetContext _ => .host 0x60
  | .opRxExpectDataSpace _ => .host 0x61
  | .opRxCacheTimeout => .host 0x62
  | .opRxRead _ _ => .host 0x63
  | .trigDccPacket _ => .packet
  | .trigCutoutStart _ => .cutout

/-- The encoding stands at the instruction's port. -/
def Statement (i : Instr) : Prop := ∀ cfg : Config, portOf (encode cfg i) = expected i

theorem dccLogonEnable (group : BitVec 2) (cid : BitVec 16) (session e : Byte) :
    Statement (.dccLogonEnable group cid session e) := fun _ => rfl

theorem dccSelect (mfg : BitVec 12) (uid : Word32) (sub : Byte) (params : List Byte) (e : Byte) :
    Statement (.dccSelect mfg uid sub params e) := fun _ => rfl

theorem dccLogonAssign (mfg : BitVec 12) (uid : Word32) (akind : BitVec 2) (addr : BitVec 14) (tail : List Byte) (e : Byte) :
    Statement (.dccLogonAssign mfg uid akind addr tail e) := fun _ => rfl

theorem dccGetDataStart (e : Byte) : Statement (.dccGetDataStart e) := fun _ => rfl

theorem dccGetDataCont (e : Byte) : Statement (.dccGetDataCont e) := fun _ => rfl

theorem dccSetData (data : List Byte) (e : Byte) : Statement (.dccSetData data e) := fun _ => rfl

theorem dccSetDataEnd (data : List Byte) (e : Byte) : Statement (.dccSetDataEnd data e) := fun _ => rfl

theorem dccPomReadBroadcast (v : BitVec 10) (x e : Byte) : Statement (.dccPomReadBroadcast v x e) := fun _ => rfl

theorem dccPomReadShort (a : BitVec 7) (v : BitVec 10) (x e : Byte) :
    Statement (.dccPomReadShort a v x e) := fun _ => rfl

theorem dccPomReadLong (a : BitVec 14) (v : BitVec 10) (x e : Byte) :
    Statement (.dccPomReadLong a v x e) := fun _ => rfl

theorem dccPomWriteBroadcast (v : BitVec 10) (d e : Byte) :
    Statement (.dccPomWriteBroadcast v d e) := fun _ => rfl

theorem dccPomWriteShort (a : BitVec 7) (v : BitVec 10) (d e : Byte) :
    Statement (.dccPomWriteShort a v d e) := fun _ => rfl

theorem dccPomWriteLong (a : BitVec 14) (v : BitVec 10) (d e : Byte) :
    Statement (.dccPomWriteLong a v d e) := fun _ => rfl

theorem dccPomWriteBitBroadcast (v : BitVec 10) (x : BitVec 4) (d : Bool) (b : BitVec 3) (e : Byte) :
    Statement (.dccPomWriteBitBroadcast v x d b e) := fun _ => rfl

theorem dccPomWriteBitShort (a : BitVec 7) (v : BitVec 10) (x : BitVec 4) (d : Bool) (b : BitVec 3) (e : Byte) :
    Statement (.dccPomWriteBitShort a v x d b e) := fun _ => rfl

theorem dccPomWriteBitLong (a : BitVec 14) (v : BitVec 10) (x : BitVec 4) (d : Bool) (b : BitVec 3) (e : Byte) :
    Statement (.dccPomWriteBitLong a v x d b e) := fun _ => rfl

theorem dccFunctionG1Broadcast (d : BitVec 5) (e : Byte) : Statement (.dccFunctionG1Broadcast d e) := fun _ => rfl

theorem dccFunctionG1Short (a : BitVec 7) (d : BitVec 5) (e : Byte) :
    Statement (.dccFunctionG1Short a d e) := fun _ => rfl

theorem dccFunctionG1Long (a : BitVec 14) (d : BitVec 5) (e : Byte) :
    Statement (.dccFunctionG1Long a d e) := fun _ => rfl

theorem dccFunctionG2F5Broadcast (d : BitVec 4) (e : Byte) :
    Statement (.dccFunctionG2F5Broadcast d e) := fun _ => rfl

theorem dccFunctionG2F5Short (a : BitVec 7) (d : BitVec 4) (e : Byte) :
    Statement (.dccFunctionG2F5Short a d e) := fun _ => rfl

theorem dccFunctionG2F5Long (a : BitVec 14) (d : BitVec 4) (e : Byte) :
    Statement (.dccFunctionG2F5Long a d e) := fun _ => rfl

theorem dccFunctionG2F9Broadcast (d : BitVec 4) (e : Byte) :
    Statement (.dccFunctionG2F9Broadcast d e) := fun _ => rfl

theorem dccFunctionG2F9Short (a : BitVec 7) (d : BitVec 4) (e : Byte) :
    Statement (.dccFunctionG2F9Short a d e) := fun _ => rfl

theorem dccFunctionG2F9Long (a : BitVec 14) (d : BitVec 4) (e : Byte) :
    Statement (.dccFunctionG2F9Long a d e) := fun _ => rfl

theorem dccExtFunctionBroadcast (c e : Byte) : Statement (.dccExtFunctionBroadcast c e) := fun _ => rfl

theorem dccExtFunctionShort (a : BitVec 7) (c e : Byte) : Statement (.dccExtFunctionShort a c e) := fun _ => rfl

theorem dccExtFunctionLong (a : BitVec 14) (c e : Byte) : Statement (.dccExtFunctionLong a c e) := fun _ => rfl

theorem dccDataSpaceReadBroadcast (n o e : Byte) : Statement (.dccDataSpaceReadBroadcast n o e) := fun _ => rfl

theorem dccDataSpaceReadShort (a : BitVec 7) (n o e : Byte) :
    Statement (.dccDataSpaceReadShort a n o e) := fun _ => rfl

theorem dccDataSpaceReadLong (a : BitVec 14) (n o e : Byte) :
    Statement (.dccDataSpaceReadLong a n o e) := fun _ => rfl

theorem dccAccessory (a : BitVec 6) (h : BitVec 3) (c : Bool) (d : BitVec 3) (e : Byte) :
    Statement (.dccAccessory a h c d e) := fun _ => rfl

theorem dgPom (value : Byte) : Statement (.dgPom value) := fun _ => rfl

theorem dgAdrHigh (raw : Byte) : Statement (.dgAdrHigh raw) := fun _ => rfl

theorem dgAdrLow (raw : Byte) : Statement (.dgAdrLow raw) := fun _ => rfl

theorem dgExt (type : BitVec 6) (position : Byte) : Statement (.dgExt type position) := fun _ => rfl

theorem dgStat4 (status : Byte) : Statement (.dgStat4 status) := fun _ => rfl

theorem dgDrivingInfo (info : Byte) : Statement (.dgDrivingInfo info) := fun _ => rfl

theorem dgBasicInfo (info : Byte) : Statement (.dgBasicInfo info) := fun _ => rfl

theorem dgStat1 (status : Byte) : Statement (.dgStat1 status) := fun _ => rfl

theorem dgTime (unit : Bool) (value : BitVec 7) : Statement (.dgTime unit value) := fun _ => rfl

theorem dgError (code : Byte) : Statement (.dgError code) := fun _ => rfl

theorem dgDyn (value : Byte) (subindex : BitVec 6) : Statement (.dgDyn value subindex) := fun _ => rfl

theorem dgXpom0 (d0 d1 d2 d3 : Byte) : Statement (.dgXpom0 d0 d1 d2 d3) := fun _ => rfl

theorem dgXpom1 (d0 d1 d2 d3 : Byte) : Statement (.dgXpom1 d0 d1 d2 d3) := fun _ => rfl

theorem dgXpom2 (d0 d1 d2 d3 : Byte) : Statement (.dgXpom2 d0 d1 d2 d3) := fun _ => rfl

theorem dgXpom3 (d0 d1 d2 d3 : Byte) : Statement (.dgXpom3 d0 d1 d2 d3) := fun _ => rfl

theorem dgStat2 (status : Byte) : Statement (.dgStat2 status) := fun _ => rfl

theorem dgCvAuto (cv : BitVec 24) (value : Byte) : Statement (.dgCvAuto cv value) := fun _ => rfl

theorem dgBlock (data : Word32) : Statement (.dgBlock data) := fun _ => rfl

theorem dgDecoderState (flags : Byte) (count : BitVec 12) (caps : BitVec 16) (crc : Byte) :
    Statement (.dgDecoderState flags count caps crc) := fun _ => rfl

theorem dgRerail (seconds : Byte) : Statement (.dgRerail seconds) := fun _ => rfl

theorem dgDecoderUnique (mfg : BitVec 12) (product : Word32) :
    Statement (.dgDecoderUnique mfg product) := fun _ => rfl

theorem dgSrq (ext : Bool) (address : BitVec 11) : Statement (.dgSrq ext address) := fun _ => rfl

theorem dgDataSpace (data : List Byte) (crc : Byte) : Statement (.dgDataSpace data crc) := fun _ => rfl

theorem symAck1 : Statement .symAck1 := fun _ => rfl

theorem symAck2 : Statement .symAck2 := fun _ => rfl

theorem symNack : Statement .symNack := fun _ => rfl

theorem symData (v : BitVec 6) : Statement (.symData v) := fun _ => rfl

theorem opReset : Statement .opReset := fun _ => rfl

theorem opTxBegin : Statement .opTxBegin := fun _ => rfl

theorem opTxEnd : Statement .opTxEnd := fun _ => rfl

theorem opRxBegin : Statement .opRxBegin := fun _ => rfl

theorem opRxEnd : Statement .opRxEnd := fun _ => rfl

theorem opCvAutoTick : Statement .opCvAutoTick := fun _ => rfl

theorem opSecondTick : Statement .opSecondTick := fun _ => rfl

theorem opSendPom (value : Byte) : Statement (.opSendPom value) := fun _ => rfl

theorem opSendAddress (address : BitVec 14) (long : Bool) :
    Statement (.opSendAddress address long) := fun _ => rfl

theorem opSendDynamic (value : Byte) (subindex : BitVec 6) :
    Statement (.opSendDynamic value subindex) := fun _ => rfl

theorem opSendXpom (seq d0 d1 d2 d3 : Byte) : Statement (.opSendXpom seq d0 d1 d2 d3) := fun _ => rfl

theorem opSendStatus1 (status : Byte) : Statement (.opSendStatus1 status) := fun _ => rfl

theorem opSendStatus2 (status : Byte) : Statement (.opSendStatus2 status) := fun _ => rfl

theorem opSendStatus4 (status : Byte) : Statement (.opSendStatus4 status) := fun _ => rfl

theorem opSendTime (value : Byte) (unit : Bool) : Statement (.opSendTime value unit) := fun _ => rfl

theorem opSendError (code : Byte) : Statement (.opSendError code) := fun _ => rfl

theorem opSendCvAuto (cv : BitVec 24) (value : Byte) : Statement (.opSendCvAuto cv value) := fun _ => rfl

theorem opSendDecoderUnique (mfg : BitVec 12) (product : Word32) :
    Statement (.opSendDecoderUnique mfg product) := fun _ => rfl

theorem opSendDecoderState (flags : Byte) (count : BitVec 12) (caps : BitVec 16) :
    Statement (.opSendDecoderState flags count caps) := fun _ => rfl

theorem opSendRerail (seconds : BitVec 16) : Statement (.opSendRerail seconds) := fun _ => rfl

theorem opSendServiceRequest (address : BitVec 16) (ext : Bool) :
    Statement (.opSendServiceRequest address ext) := fun _ => rfl

theorem opSendExt (type : BitVec 6) (position : Byte) : Statement (.opSendExt type position) := fun _ => rfl

theorem opSendDrivingInfo (info : Byte) : Statement (.opSendDrivingInfo info) := fun _ => rfl

theorem opSendBasicInfo (info : Byte) : Statement (.opSendBasicInfo info) := fun _ => rfl

theorem opSendBlock (data : Word32) : Statement (.opSendBlock data) := fun _ => rfl

theorem opSendDataSpace (num : Byte) (data : List Byte) : Statement (.opSendDataSpace num data) := fun _ => rfl

theorem opSetAddress (address : BitVec 14) (long : Bool) : Statement (.opSetAddress address long) := fun _ => rfl

theorem opSetIdentity (mfg : BitVec 12) (product : Word32) :
    Statement (.opSetIdentity mfg product) := fun _ => rfl

theorem opSetClass (cls : DecoderClass) (kind : StatusKind) : Statement (.opSetClass cls kind) := fun _ => rfl

theorem opSetExtInfoEnabled (en : Bool) : Statement (.opSetExtInfoEnabled en) := fun _ => rfl

theorem opSetExtInfo (info : Byte) : Statement (.opSetExtInfo info) := fun _ => rfl

theorem opSetExtPosition (type : BitVec 6) (position : Byte) :
    Statement (.opSetExtPosition type position) := fun _ => rfl

theorem opSetDecoderStateFields (flags : Byte) (count : BitVec 12) (caps : BitVec 16) :
    Statement (.opSetDecoderStateFields flags count caps) := fun _ => rfl

theorem opCvSet (key : BitVec 24) (value : Byte) : Statement (.opCvSet key value) := fun _ => rfl

theorem opCvClear : Statement .opCvClear := fun _ => rfl

theorem opDsSet (num : Byte) (bytes : List Byte) : Statement (.opDsSet num bytes) := fun _ => rfl

theorem opDsClear : Statement .opDsClear := fun _ => rfl

theorem opLogonReset : Statement .opLogonReset := fun _ => rfl

theorem opRxSetContext (ctx : BitVec 2) : Statement (.opRxSetContext ctx) := fun _ => rfl

theorem opRxExpectDataSpace (num : Byte) : Statement (.opRxExpectDataSpace num) := fun _ => rfl

theorem opRxCacheTimeout : Statement .opRxCacheTimeout := fun _ => rfl

theorem opRxRead (timeoutUs : Word32) (line : List RxSample) :
    Statement (.opRxRead timeoutUs line) := fun _ => rfl

theorem trigDccPacket (pkt : List Byte) : Statement (.trigDccPacket pkt) := fun _ => rfl

theorem trigCutoutStart (elapsedUs : Word32) : Statement (.trigCutoutStart elapsedUs) := fun _ => rfl

end Sys2Proof.Laws.EncodesAtItsPort
end

