-- ==== Sys2Proof/Laws/Receiver.lean ====
section
/-! SUPPORT. The polling loop and the byte step of the RX Engine: everything one round and one received byte can do. -/

namespace Sys2Proof.Machine

/-- The bytes of an inner loop are the first that are there, as many as `available()` counted (rule R208). -/
@[simp] theorem readLoop_reduceOption (n : Nat) (bytes : List Byte) :
    (readLoop n bytes).reduceOption = bytes.take n := by
  induction n generalizing bytes with
  | zero => rfl
  | succ n ih => cases bytes <;> simp [readLoop, ih]

/-- An inner loop over as many bytes as were counted reads them all, and none. -/
@[simp] theorem readLoop_length (bytes : List Byte) : readLoop bytes.length bytes = bytes.map some := by
  induction bytes with
  | nil => rfl
  | cons b rest ih => simp [readLoop, ih]

/-- The bytes gathered, round by round (rule R208). -/
theorem polledBytes_eq (rounds : List RxSample) : polledBytes rounds = rounds.flatMap fun x => x.bytes.take x.count := by
  simp [polledBytes, roundReads]

@[simp] theorem polledBytes_roundOf (bytes : List Byte) : polledBytes [roundOf bytes] = bytes := by
  simp [polledBytes_eq, roundOf]

/-- The calls of the round that reads exactly these bytes (rules R208, R437). -/
@[simp] theorem pollCalls_roundOf (bytes : List Byte) :
    pollCalls (roundOf bytes) = .available .rx bytes.length :: bytes.map fun b => .read .rx (some b) := by
  simp [pollCalls, roundReads, roundOf, Function.comp_def]

/-- What the end of a step does (rule R186): wait, drop, or deliver. -/
theorem rxDeliver_cases (r : Receiver) :
    (¬ (r.rxState = .reading ∧ r.rxTotal.toNat ≤ r.rxAcc.length) ∧ rxDeliver r = (r, none)) ∨
      (r.rxState = .reading ∧ r.rxTotal.toNat ≤ r.rxAcc.length ∧
        (rxDeliver r = (rxClear r, none) ∨
          ∃ k m, resolve (rxId r.rxAcc) r.rxTotal.toNat r.rxContext = some k ∧
            construct k (rxPayload r.rxAcc r.rxTotal.toNat) r.rxAcc r.rxAdrHigh = some m ∧
            rxDeliver r = ({ rxClear r with rxAdrHigh := cacheAfter k (rxPayload r.rxAcc r.rxTotal.toNat) }, some m))) := by
  by_cases h : r.rxState = .reading ∧ r.rxTotal.toNat ≤ r.rxAcc.length
  · refine .inr ⟨h.1, h.2, ?_⟩
    rw [rxDeliver, if_pos h]
    dsimp only
    cases hk : resolve (rxId r.rxAcc) r.rxTotal.toNat r.rxContext with
    | none => exact .inl rfl
    | some k =>
      cases hm : construct k (rxPayload r.rxAcc r.rxTotal.toNat) r.rxAcc r.rxAdrHigh with
      | none => exact .inl (by simp only [hm])
      | some m => exact .inr ⟨k, m, rfl, hm, by simp only [hm]⟩
  · exact .inl ⟨h, by rw [rxDeliver, if_neg h]⟩

/-- What the examination of the accumulator does (rule R186). -/
theorem rxExamine_cases (r : Receiver) :
    (¬ (r.rxState = .idle ∧ 8 ≤ r.rxAcc.length) ∧ rxExamine r = rxDeliver r) ∨
      (r.rxState = .idle ∧ 8 ≤ r.rxAcc.length ∧ expectedBits (rxId r.rxAcc) r.rxContext = 0 ∧
        rxExamine r = (rxClear r, none)) ∨
      (r.rxState = .idle ∧ 8 ≤ r.rxAcc.length ∧ expectedBits (rxId r.rxAcc) r.rxContext ≠ 0 ∧
        rxExamine r = rxDeliver { r with
          rxTotal := BitVec.ofNat 6 (4 + expectedBits (rxId r.rxAcc) r.rxContext), rxState := .reading }) := by
  by_cases h : r.rxState = .idle ∧ 8 ≤ r.rxAcc.length
  · by_cases hb : expectedBits (rxId r.rxAcc) r.rxContext = 0
    · exact .inr (.inl ⟨h.1, h.2, hb, by rw [rxExamine, if_pos h]; exact if_pos hb⟩)
    · exact .inr (.inr ⟨h.1, h.2, hb, by rw [rxExamine, if_pos h]; exact if_neg hb⟩)
  · exact .inl ⟨h, by rw [rxExamine, if_neg h]⟩

/-- What one byte does (rules R182, R186, R209): a data symbol enters the accumulator, anything else clears it. -/
theorem rxStep_cases (cfg : Config) (b : Byte) (r : Receiver) :
    (∃ v, decode4of8 cfg b = .data v ∧
        rxStep cfg b r = rxExamine { r with rxAcc := r.rxAcc ++ bitsOf 6 v.toNat }) ∨
      ((∀ v, decode4of8 cfg b ≠ .data v) ∧ rxStep cfg b r = (rxClear r, none)) := by
  unfold rxStep
  cases decode4of8 cfg b with
  | data v => exact .inl ⟨v, rfl, rfl⟩
  | ack1 => exact .inr ⟨fun _ => Symbol.noConfusion, rfl⟩
  | ack2 => exact .inr ⟨fun _ => Symbol.noConfusion, rfl⟩
  | nack => exact .inr ⟨fun _ => Symbol.noConfusion, rfl⟩
  | invalid => exact .inr ⟨fun _ => Symbol.noConfusion, rfl⟩

/-- The bytes of two reads, one after the other, are read as the bytes of one. -/
theorem rxSteps_append (cfg : Config) (a b : List Byte) (r : Receiver) :
    rxSteps cfg (a ++ b) r =
      ((rxSteps cfg b (rxSteps cfg a r).1).1, (rxSteps cfg a r).2 ++ (rxSteps cfg b (rxSteps cfg a r).1).2) := by
  induction a generalizing r with
  | nil => rfl
  | cons x rest ih => simp [rxSteps, ih]

/-- The length table of rule R183 answers 0, 8, 14, 32 or 44. -/
theorem expectedBits_cases (id : BitVec 4) (ctx : RxContext) :
    expectedBits id ctx ∈ [0, 8, 14, 32, 44] := by
  revert id
  cases ctx <;> decide

/-- A data-space read always ends idle, empty, with nothing expected (rules R201, R204). -/
theorem rxDataSpace_fst (cfg : Config) (bytes : List Byte) (r : Receiver) :
    (rxDataSpace cfg bytes r).1 = { rxClear r with rxExpectDs := false, rxAdrHigh := 0 } := by
  unfold rxDataSpace
  cases dataSymbols cfg bytes <;> rfl

end Sys2Proof.Machine
end

