-- ==== Sys2Proof/Tests/Slice0.lean ====
section
/-! SUPPORT. Tests: ill-formed terms refused, words written from the spec's encodings and what they decode to, single
steps from the vectors of 95_test_vectors.md (named in the docstrings), and for every obligation with hypotheses a
state and operands that meet them. -/

namespace Sys2Proof.Tests

open Sys2Proof.Machine Sys2Proof.Safety Sys2Proof.Claims

set_option maxRecDepth 20000

/-! ### WellFormed refuses -/

/-- A short address of zero is the Broadcast form (rule R112). -/
theorem test_wf_short_zero :
    (Instr.dccPomReadShort 0 0 0 0).wf = false ∧ (Instr.dccPomWriteShort 0 0 0 0).wf = false ∧
    (Instr.dccPomWriteBitShort 0 0 0 true 0 0).wf = false ∧ (Instr.dccFunctionG1Short 0 0 0).wf = false ∧
    (Instr.dccFunctionG2F5Short 0 0 0).wf = false ∧ (Instr.dccFunctionG2F9Short 0 0 0).wf = false ∧
    (Instr.dccExtFunctionShort 0 0 0).wf = false ∧ (Instr.dccDataSpaceReadShort 0 0 0 0).wf = false := by
  decide

/-- A long address above 0x27FF has no first byte in 0xC0 to 0xE7 (rule R112). -/
theorem test_wf_long_high :
    (Instr.dccPomReadLong 0x2800 0 0 0).wf = false ∧ (Instr.dccPomWriteLong 0x2800 0 0 0).wf = false ∧
    (Instr.dccPomWriteBitLong 0x2800 0 0 true 0 0).wf = false ∧ (Instr.dccFunctionG1Long 0x2800 0 0).wf = false ∧
    (Instr.dccFunctionG2F5Long 0x2800 0 0).wf = false ∧ (Instr.dccFunctionG2F9Long 0x2800 0 0).wf = false ∧
    (Instr.dccExtFunctionLong 0x2800 0 0).wf = false ∧ (Instr.dccDataSpaceReadLong 0x2800 0 0 0).wf = false := by
  decide

/-- The byte strings of a packet, a response or a host argument have a greatest length (rules R108, R111, R120). -/
theorem test_wf_long_strings :
    (Instr.dccSelect 0 0 0 [0, 0, 0, 0] 0).wf = false ∧ (Instr.dccLogonAssign 0 0 0 0 [0, 0, 0] 0).wf = false ∧
    (Instr.dccSetData (List.replicate 10 0) 0).wf = false ∧ (Instr.dccSetDataEnd (List.replicate 10 0) 0).wf = false ∧
    (Instr.dgDataSpace (List.replicate 17 0) 0).wf = false ∧
    (Instr.opSendDataSpace 0 (List.replicate 256 0)).wf = false ∧ (Instr.opDsSet 0 (List.replicate 256 0)).wf = false ∧
    (Instr.trigDccPacket (List.replicate 16 0)).wf = false := by
  decide

/-! ### Words of the spec and what they decode to -/

/-- Every pair's packet decodes to its instruction. -/
def dccReads (l : List (List Byte × Instr)) : Bool :=
  l.all fun p => decodeDcc Config.default p.1 == p.2

/-- Every pair's host operation decodes to its instruction. -/
def hostReads (l : List ((Byte × List Byte) × Instr)) : Bool :=
  l.all fun p => match decodeHost p.1.1 p.1.2 [] with
    | .ok i => i == p.2
    | .error _ => false

/-- Every pair's datagram decodes to its instruction. -/
def datagramReads (l : List ((Kind × List Byte) × Instr)) : Bool :=
  l.all fun p => decodeDatagram Config.default p.1.1 p.1.2 == p.2

/-- Rule R113; V90, V93, V95, V97 to V99. -/
theorem test_decode_logon :
    dccReads [([0xFE, 0xFC, 0x12, 0x34, 0x56, 0x72], .dccLogonEnable 0 0x1234 0x56 0x72),
      ([0xFE, 0xD0, 0xA5, 0x12, 0x34, 0x56, 0x78, 0xFF, 0x7C], .dccSelect 0x0A5 0x12345678 0xFF [] 0x7C),
      ([0xFE, 0xD0, 0xA5, 0x12, 0x34, 0x56, 0x78, 0xFF, 0x01, 0x02, 0x03, 0x7C],
        .dccSelect 0x0A5 0x12345678 0xFF [1, 2, 3] 0x7C),
      ([0xFE, 0xE0, 0xA5, 0x12, 0x34, 0x56, 0x78, 0x03, 0xE8, 0x58], .dccLogonAssign 0x0A5 0x12345678 0 1000 [] 0x58),
      ([0xFE, 0xE0, 0xA5, 0x12, 0x34, 0x56, 0x78, 0xC0, 0x05, 0xAA, 0xBB, 0x67],
        .dccLogonAssign 0x0A5 0x12345678 3 5 [0xAA, 0xBB] 0x67),
      ([0xFE, 0x00, 0xFE], .dccGetDataStart 0xFE), ([0xFE, 0x01, 0xFF], .dccGetDataCont 0xFF),
      ([0xFE, 0x02, 0xAA, 0xBB, 0xED], .dccSetData [0xAA, 0xBB] 0xED), ([0xFE, 0x03, 0xFD], .dccSetDataEnd [] 0xFD)] := by
  decide

/-- Rule R114; V110 to V113. -/
theorem test_decode_pom :
    dccReads [([0x00, 0xE4, 0x07, 0x00, 0xE3], .dccPomReadBroadcast 7 0 0xE3),
      ([0x03, 0xE7, 0xFF, 0x00, 0x1B], .dccPomReadShort 3 1023 0 0x1B),
      ([0xC3, 0xE8, 0xE4, 0x00, 0x00, 0xCF], .dccPomReadLong 1000 0 0 0xCF),
      ([0x00, 0xEC, 0x1C, 0x22, 0xD2], .dccPomWriteBroadcast 28 0x22 0xD2),
      ([0x03, 0xEC, 0x1C, 0x22, 0xD1], .dccPomWriteShort 3 28 0x22 0xD1),
      ([0xC3, 0xE8, 0xEC, 0x1C, 0x22, 0xF9], .dccPomWriteLong 1000 28 0x22 0xF9),
      ([0x00, 0xE8, 0x1C, 0xFD, 0x09], .dccPomWriteBitBroadcast 28 0xF true 5 0x09),
      ([0x03, 0xE8, 0x1C, 0xFD, 0x0A], .dccPomWriteBitShort 3 28 0xF true 5 0x0A),
      ([0xC3, 0xE8, 0xE8, 0x1C, 0xE6, 0x39], .dccPomWriteBitLong 1000 28 0xE false 6 0x39)] := by
  decide

/-- Rule R116; V118 to V120. -/
theorem test_decode_function :
    dccReads [([0x00, 0x92, 0x92], .dccFunctionG1Broadcast 0x12 0x92), ([0x03, 0x92, 0x91], .dccFunctionG1Short 3 0x12 0x91),
      ([0xC3, 0xE8, 0x92, 0xB9], .dccFunctionG1Long 1000 0x12 0xB9),
      ([0x00, 0xB5, 0xB5], .dccFunctionG2F5Broadcast 5 0xB5), ([0x7F, 0xBF, 0xC0], .dccFunctionG2F5Short 127 15 0xC0),
      ([0xC0, 0x00, 0xB5, 0x75], .dccFunctionG2F5Long 0 5 0x75),
      ([0x00, 0xA3, 0xA3], .dccFunctionG2F9Broadcast 3 0xA3), ([0x03, 0xAF, 0xAC], .dccFunctionG2F9Short 3 15 0xAC),
      ([0xE7, 0xFF, 0xA3, 0xBB], .dccFunctionG2F9Long 10239 3 0xBB)] := by
  decide

/-- Rules R115, R117, R118; V115, V116, V121, V123. -/
theorem test_decode_other_packets :
    dccReads [([0x00, 0xDE, 0x02, 0xDC], .dccExtFunctionBroadcast 2 0xDC), ([0x03, 0xDE, 0x01, 0xDC], .dccExtFunctionShort 3 1 0xDC),
      ([0xC3, 0xE8, 0xDE, 0x01, 0xF4], .dccExtFunctionLong 1000 1 0xF4),
      ([0x00, 0xDF, 0x05, 0x00, 0xDA], .dccDataSpaceReadBroadcast 5 0 0xDA),
      ([0x03, 0xDF, 0x05, 0x01, 0xD8], .dccDataSpaceReadShort 3 5 1 0xD8),
      ([0xC3, 0xE8, 0xDF, 0x05, 0x00, 0xF1], .dccDataSpaceReadLong 1000 5 0 0xF1),
      ([0x85, 0xFA, 0x7F], .dccAccessory 5 7 true 2 0x7F), ([0x85, 0x8A, 0x0F], .dccAccessory 5 0 true 2 0x0F),
      ([0xBF, 0xF7, 0x48], .dccAccessory 63 7 false 7 0x48)] := by
  decide

/-- Packets of no format (rule R297): V92, V96, V99, V114, V117, V122, V124 to V127. -/
theorem test_decode_no_format :
    ([[0xFE, 0xFC, 0x12, 0x34, 0x56], [0xFE, 0xD0, 0xA5, 0x12, 0x34, 0x56, 0x78, 0x83], [0xFE, 0x04, 0xFA],
      [0xFE, 0x00, 0x00, 0xFE], [0x03, 0xE0, 0x07, 0x00, 0xE4], [0x85, 0x0A, 0x8F], [0x85, 0xFA, 0x7F, 0x00],
      [0x03, 0xDE, 0x02, 0x00, 0xDF], [0x03, 0xDF, 0x05, 0xD9], [0xFF, 0x00, 0xFF], [0x00, 0x00, 0x00],
      [0x03, 0x3F, 0x80, 0xBC], [0xE8, 0x00, 0xE4, 0x00, 0x00, 0x0C], [0x03, 0xE4, 0x07, 0x00, 0xE0, 0x00], [0x03, 0x03],
      [], [0xFE, 0x02, 0, 0, 0, 0, 0, 0, 0, 0, 0, 0, 0xFC]] : List (List Byte)).all
      (fun pkt => decodeDcc Config.default pkt == .trigDccPacket pkt) := by
  decide

/-- Rules R104 to R107: the datagrams with an ID, as bytes of the default table; V32 to V52. -/
theorem test_decode_datagrams :
    datagramReads [((.pom, [0xAC, 0x4D]), .dgPom 0x22), ((.adrHigh, [0x9C, 0xA5]), .dgAdrHigh 0x83),
      ((.adrLow, [0x96, 0xE2]), .dgAdrLow 0xE8), ((.ext, [0x8E, 0x6C, 0x47]), .dgExt 5 0x64), ((.stat4, [0x8B, 0xAA]), .dgStat4 0x81),
      ((.drivingInfo, [0x8E, 0x95]), .dgDrivingInfo 9), ((.basicInfo, [0xB4, 0x66]), .dgBasicInfo 0x5A),
      ((.stat1, [0xB2, 0xA3]), .dgStat1 4), ((.time, [0x69, 0x47]), .dgTime true 100), ((.error, [0x65, 0x9A]), .dgError 7),
      ((.dyn, [0x59, 0xB2, 0x9A]), .dgDyn 0x50 7), ((.stat2, [0x56, 0xA3]), .dgStat2 4), ((.rerail, [0x36, 0xC9]), .dgRerail 42),
      ((.srq, [0xCA, 0xE2]), .dgSrq true 1000)] := by
  decide

/-- Rules R104 to R108: the wide datagrams; V34, V42 to V44, V52, V30. XPOM_1 is V34's layout under ID 9. -/
theorem test_decode_wide_datagrams :
    datagramReads [((.xpom0, [0x56, 0xAC, 0xAC, 0xAC, 0xAC, 0xAC]), .dgXpom0 0 0 0 0),
      ((.xpom1, [0x47, 0xB4, 0x99, 0x4B, 0x8D, 0xA3]), .dgXpom1 0x11 0x22 0x33 0x44),
      ((.xpom2, [0xE2, 0xB4, 0x99, 0x4B, 0x8D, 0xA3]), .dgXpom2 0x11 0x22 0x33 0x44),
      ((.xpom3, [0xCA, 0x55, 0xC5, 0x5C, 0x2B, 0xCA]), .dgXpom3 0xDE 0xAD 0xBE 0xEF),
      ((.cvAuto, [0xC6, 0xAC, 0xAC, 0xAA, 0x1B, 0x4D]), .dgCvAuto 29 34),
      ((.block, [0x2E, 0x55, 0xC5, 0x5C, 0x2B, 0xCA]), .dgBlock 0xDEADBEEF),
      ((.decoderState, [0x1E, 0xAA, 0xA3, 0x4B, 0xCA, 0xD2, 0x33, 0xB4]), .dgDecoderState 0x81 0x123 0xBEEF 0xD1),
      ((.decoderUnique, [0x2D, 0x93, 0x72, 0xB8, 0x8D, 0xA6, 0x63, 0x36]), .dgDecoderUnique 0x0A5 0x12345678),
      ((.dataSpace, [0xAC, 0x47, 0xA6, 0xA9, 0x2E, 0xC6]), .dgDataSpace [0x41, 0x42] 0xDF)] := by
  decide

/-- Rules R100, R101; V3, V6, V7. -/
theorem test_decode_symbols :
    decodeSymbol Config.default 0xF0 = .symAck1 ∧ decodeSymbol Config.default 0x0F = .symAck2 ∧
    decodeSymbol Config.default 0x3C = .symNack ∧ decodeSymbol Config.default 0x4D = .symData 34 ∧
    decodeSymbol Config.default 0x33 = .symData 63 ∧
    decodeSymbol Config.default 0x87 = .opRxRead 0 [{ now := 0, count := 1, bytes := [0x87] }] := by
  decide

/-- Rule R120, codes 0x00 to 0x22. -/
theorem test_decode_host_sends :
    hostReads [((0x00, []), .opReset), ((0x01, []), .opTxBegin), ((0x02, []), .opTxEnd), ((0x03, []), .opRxBegin),
      ((0x04, []), .opRxEnd), ((0x05, []), .opCvAutoTick), ((0x06, []), .opSecondTick), ((0x10, [0x22]), .opSendPom 0x22),
      ((0x11, [0x03, 0xE8, 0x01]), .opSendAddress 1000 true), ((0x12, [0x50, 0x07]), .opSendDynamic 0x50 7),
      ((0x13, [2, 0x11, 0x22, 0x33, 0x44]), .opSendXpom 2 0x11 0x22 0x33 0x44), ((0x14, [4]), .opSendStatus1 4),
      ((0x15, [4]), .opSendStatus2 4), ((0x16, [4]), .opSendStatus4 4), ((0x17, [100, 1]), .opSendTime 100 true),
      ((0x18, [7]), .opSendError 7), ((0x19, [0, 0, 29, 34]), .opSendCvAuto 29 34),
      ((0x1A, [0x00, 0xA5, 0x12, 0x34, 0x56, 0x78]), .opSendDecoderUnique 0x0A5 0x12345678),
      ((0x1B, [0x81, 0x01, 0x23, 0xBE, 0xEF]), .opSendDecoderState 0x81 0x123 0xBEEF), ((0x1C, [1, 0]), .opSendRerail 256),
      ((0x1D, [0x03, 0xE8, 1]), .opSendServiceRequest 1000 true), ((0x1E, [5, 0x64]), .opSendExt 5 0x64),
      ((0x1F, [9]), .opSendDrivingInfo 9), ((0x20, [0x5A]), .opSendBasicInfo 0x5A),
      ((0x21, [0xDE, 0xAD, 0xBE, 0xEF]), .opSendBlock 0xDEADBEEF), ((0x22, [5, 2, 0x41, 0x42]), .opSendDataSpace 5 [0x41, 0x42])] := by
  decide

/-- Rule R120, codes 0x40 to 0x63; a code of no operation (V208). -/
theorem test_decode_host_config :
    hostReads [((0x40, [0x03, 0xE8, 1]), .opSetAddress 1000 true), ((0x41, [0, 0xA5, 0x12, 0x34, 0x56, 0x78]), .opSetIdentity 0x0A5 0x12345678),
      ((0x42, [1, 0]), .opSetClass .stationary .stat1), ((0x43, [1]), .opSetExtInfoEnabled true), ((0x44, [0x5A]), .opSetExtInfo 0x5A),
      ((0x45, [5, 0x64]), .opSetExtPosition 5 0x64), ((0x46, [0x81, 0x01, 0x23, 0xBE, 0xEF]), .opSetDecoderStateFields 0x81 0x123 0xBEEF),
      ((0x47, [0, 0, 8, 0x22]), .opCvSet 8 0x22), ((0x48, []), .opCvClear), ((0x49, [5, 2, 0x41, 0x42]), .opDsSet 5 [0x41, 0x42]),
      ((0x4A, []), .opDsClear), ((0x4B, []), .opLogonReset), ((0x60, [1]), .opRxSetContext 1), ((0x61, [5]), .opRxExpectDataSpace 5),
      ((0x62, []), .opRxCacheTimeout), ((0x63, [0, 0, 0x03, 0xE8]), .opRxRead 1000 [])] ∧
    decodeHost 0x7F [] [] = .error (.unlistedOpCode 0x7F) := by
  refine ⟨by decide, rfl⟩

/-- The two triggers with a port of their own (rules R120, R420), and the words of a few table rows. -/
theorem test_decode_ports_and_table_words :
    decode Config.default (.cutout 30) = .ok (.trigCutoutStart 30) ∧ decode Config.default .resetInput = .ok .opReset ∧
    decodeTableWord 24 0xFE0000 = some (.dccGetDataStart 0) ∧ decodeTableWord 24 0x808000 = some (.dccAccessory 0 0 false 0 0) ∧
    decodeTableWord 8 0x3C = some .symNack ∧ decodeTableWord 8 0x05 = some .opCvAutoTick := by
  refine ⟨rfl, rfl, by decide, by decide, by decide, by decide⟩

/-! ### One step -/

/-- The state after an operation. -/
def after (i : Instr) (s : State) : State :=
  match exec i s with
  | .next t => t
  | .fault _ => s
  | .refused _ => s

/-- A state whose decoder half is a change of the reset one. -/
def withDec (f : Decoder → Decoder) : State := { State.reset with dec := f Decoder.reset }

/-- A state whose receiver half is a change of the reset one. -/
def withRcv (f : Receiver → Receiver) : State := { State.reset with rcv := f Receiver.reset }

/-- The entries an operation queues from reset. -/
def queued (i : Instr) : List Entry × List Entry := ((after i State.reset).dec.ch1Q, (after i State.reset).dec.ch2Q)

/-- The messages one read of the bytes delivers in a context. -/
def heard (ctx : RxContext) (bytes : List Byte) : Option (List Msg) :=
  (after (.opRxRead 1000 [roundOf bytes]) (withRcv fun r => { r with rxContext := ctx })).out.messages

/-- V32. -/
theorem test_sendPom : queued (.opSendPom 0x22) = ([], [[0xAC, 0x4D]]) := by decide

/-- V33. -/
theorem test_sendDynamic : queued (.opSendDynamic 0x50 7) = ([], [[0x59, 0xB2, 0x9A]]) := by decide

/-- V34, V35. -/
theorem test_sendXpom : queued (.opSendXpom 2 0x11 0x22 0x33 0x44) = ([], [[0xE2, 0xB4, 0x99, 0x4B, 0x8D, 0xA3]]) ∧
    queued (.opSendXpom 4 1 2 3 4) = ([], []) := by decide

/-- V36 to V38. -/
theorem test_sendStatus : queued (.opSendStatus1 0x05) = ([], [[0xB2, 0xA6]]) ∧
    queued (.opSendStatus2 0xFF) = ([], [[0x4B, 0x33]]) ∧ queued (.opSendStatus4 0x81) = ([], [[0x8B, 0xAA]]) := by decide

/-- V39, V40. -/
theorem test_sendTime : queued (.opSendTime 127 true) = ([], [[0x69, 0x33]]) ∧
    queued (.opSendTime 128 false) = ([], []) := by decide

/-- V41. -/
theorem test_sendError : queued (.opSendError 0xFF) = ([], [[0x5C, 0x33]]) := by decide

/-- V42. -/
theorem test_sendCvAuto : queued (.opSendCvAuto 1024 0) = ([], [[0xC6, 0xAC, 0xAA, 0xAC, 0xAC, 0xAC]]) := by decide

/-- V43. -/
theorem test_sendDecoderUnique : queued (.opSendDecoderUnique 0x0A5 0x12345678) =
    ([[0x2D, 0x93]], [[0x72, 0xB8, 0x8D, 0xA6, 0x63, 0x36]]) := by decide

/-- V44. -/
theorem test_sendDecoderState : queued (.opSendDecoderState 0x81 0x123 0xBEEF) =
    ([[0x1E, 0xAA]], [[0xA3, 0x4B, 0xCA, 0xD2, 0x33, 0xB4]]) := by decide

/-- V45, V46. -/
theorem test_sendRerail : queued (.opSendRerail 255) = ([], [[0x2B, 0x33]]) ∧ queued (.opSendRerail 256) = ([], []) := by
  decide

/-- V47, V48. -/
theorem test_sendServiceRequest : queued (.opSendServiceRequest 2047 true) = ([[0x33, 0x33]], []) ∧
    queued (.opSendServiceRequest 2048 false) = ([], []) := by decide

/-- V49 to V52. -/
theorem test_sendExt_and_infos : queued (.opSendExt 5 0x64) = ([], [[0x8E, 0x6C, 0x47]]) ∧
    queued (.opSendDrivingInfo 0xFF) = ([[0xB1, 0x33]], []) ∧ queued (.opSendBasicInfo 0x5A) = ([[0xB4, 0x66]], []) ∧
    queued (.opSendBlock 0xDEADBEEF) = ([], [[0x2E, 0x55, 0xC5, 0x5C, 0x2B, 0xCA]]) := by decide

/-- V53, V54. -/
theorem test_sendDataSpace : queued (.opSendDataSpace 5 [0x41, 0x42]) = ([[0xAC, 0x47]], [[0xA6, 0xA9, 0x2E, 0xC6]]) ∧
    queued (.opSendDataSpace 0 []) = ([[0xAC, 0xAC]], [[0xAC]]) := by decide

/-- V57. -/
theorem test_sendDataSpace_too_long : queued (.opSendDataSpace 1 (List.replicate 17 0)) = ([], []) := by decide

/-- V61, V66. -/
theorem test_sendAddress : queued (.opSendAddress 1000 true) = ([[0x9C, 0xA5]], []) ∧
    (after (.opSendAddress 200 false) (withDec fun d => { d with rotIndex := 1 })).dec.ch1Q = [[0x95, 0x99]] := by decide

/-- V80: a full queue drops the entry, the rotation advances. -/
theorem test_sendAddress_full :
    (after (.opSendAddress 3 false) (withDec fun d => { d with ch1Q := List.replicate 8 [0xA3, 0xAC] })).dec.rotIndex = 1 ∧
    (after (.opSendAddress 3 false) (withDec fun d => { d with ch1Q := List.replicate 8 [0xA3, 0xAC] })).dec.ch1Q.length = 8 := by
  decide

/-- V76. -/
theorem test_cutout : (after (.trigCutoutStart 30) (withDec fun d =>
      { d with ch1Q := [[0x9C, 0xA5]], ch2Q := [[0xAC, 0x4D], [0x59, 0xB2, 0x9A]] })).out.calls =
    [.setBaudrate .tx 250000, .write .tx [0x9C, 0xA5], .waitUntil 163, .write .tx [0xAC, 0x4D],
      .write .tx [0x59, 0xB2, 0x9A], .waitForTransmitComplete .tx, .setBaudrate .tx 115200] := by decide

/-- V70, V74. -/
theorem test_cutout_late : (after (.trigCutoutStart 0) State.reset).out.calls = [] ∧
    (after (.trigCutoutStart 0xFFFFFFFF) (withDec fun d => { d with ch2Q := [[0xAC, 0x4D]] })).out.calls =
      [.setBaudrate .tx 250000, .waitUntil 0, .write .tx [0xAC, 0x4D], .waitForTransmitComplete .tx,
        .setBaudrate .tx 115200] := by decide

/-- Rules R260, R261: two bytes of channel 1 and six of channel 2 at 40 microseconds a byte (rule R263) end 433
microseconds after the event, the 80 of channel 1 inside the wait of 193; two bytes of channel 1 alone end after 80. -/
theorem test_flushEnd :
    flushEndUs 40 0 { Decoder.reset with ch1Q := [[0x2D, 0x93]], ch2Q := [[0x72, 0xB8, 0x8D, 0xA6, 0x63, 0x36]] } = 433 ∧
    flushEndUs 40 0 { Decoder.reset with ch1Q := [[0x2D, 0x93]] } = 80 := by decide

/-- Rules R9, R464: a window is a parameter; a flush of 433 microseconds fits a window of 433. -/
theorem test_flushFits :
    FlushFits { Config.default with cutoutWindowUs := some 433 } 40 0
      { Decoder.reset with ch1Q := [[0x2D, 0x93]], ch2Q := [[0x72, 0xB8, 0x8D, 0xA6, 0x63, 0x36]] } :=
  ⟨433, rfl, by decide⟩

/-- V211. -/
theorem test_transport : (after .opTxBegin State.reset).out.calls = [.beginPort .tx, .setBaudrate .tx 115200] ∧
    (after .opTxEnd State.reset).out.calls = [.endPort .tx] ∧
    (after .opRxBegin State.reset).out.calls = [.beginPort .rx, .setBaudrate .rx 250000] ∧
    (after .opRxEnd State.reset).out.calls = [.endPort .rx] := by decide

/-- V100. -/
theorem test_logonEnable : (after (.dccLogonEnable 0 0x1234 0x56 0x72) State.reset).dec.ch1Q = [[0x2D, 0xAC]] ∧
    (after (.dccLogonEnable 0 0x1234 0x56 0x72) State.reset).dec.backoffCounter = 1 ∧
    (after (.dccLogonEnable 0 0x1234 0x56 0x72) State.reset).dec.backoffValue = 2 := by decide

/-- V100, its second call. -/
theorem test_logonEnable_waits :
    (after (.dccLogonEnable 0 0 0 0) (withDec fun d => { d with backoffCounter := 1 })).dec.logonState = .waitingForLogon ∧
    (after (.dccLogonEnable 0 0 0 0) (withDec fun d => { d with backoffCounter := 1 })).out.responseTriggered = some false := by
  decide

/-- V101, V103. -/
theorem test_select :
    (after (.dccSelect 0x0A5 0x12345678 0xFF [] 0x7C) (withDec fun d =>
      { d with mfgId := 0x0A5, productId := 0x12345678 })).dec.logonState = .announced ∧
    (after (.dccSelect 0x1A5 0x12345678 0xFF [] 0x7D) (withDec fun d =>
      { d with mfgId := 0x0A5, productId := 0x12345678 })).dec.logonState = .idle := by decide

/-- V105. -/
theorem test_logonAssign :
    (after (.dccLogonAssign 0 0 0 100 [] 0) State.reset).dec.address = 100 ∧
    (after (.dccLogonAssign 0 0 0 100 [] 0) State.reset).dec.addrLong = false ∧
    (after (.dccLogonAssign 0 0 0 100 [] 0) State.reset).dec.ch2Q = [[0xAC, 0xAC, 0xAC, 0xAC, 0xAA, 0x55]] := by decide

/-- V108: a logon command is answered by no default broadcast. -/
theorem test_logonData : (after (.dccGetDataStart 0xFE) State.reset).dec = Decoder.reset ∧
    (after (.dccGetDataCont 0xFF) State.reset).dec = Decoder.reset ∧
    (after (.dccSetData [0xAA, 0xBB] 0xED) State.reset).dec = Decoder.reset ∧
    (after (.dccSetDataEnd [] 0xFD) State.reset).dec = Decoder.reset := by decide

/-- A short decoder 3 with CV 8 = 0x22. -/
def withCv8 : State := withDec fun d => { d with cv := [(8, 0x22)] }

/-- V131, V130. -/
theorem test_pomRead_own : (after (.dccPomReadShort 3 7 0 0xE0) withCv8).dec.ch2Q = [[0xAC, 0x4D]] ∧
    (after (.dccPomReadShort 3 0 0 0xE7) withCv8).dec.ch2Q = [] ∧
    (after (.dccPomReadShort 3 0 0 0xE7) withCv8).dec.ch1BroadcastEnabled = false := by decide

/-- P1, first event; V132 with the latch set. -/
theorem test_pomRead_other : (after (.dccPomReadShort 4 7 0 0xE7) withCv8).dec.ch1Q = [[0xA3, 0xAC]] ∧
    (after (.dccPomReadBroadcast 7 0 0xE3) withCv8).dec.ch1Q = [[0xA3, 0xAC]] := by decide

/-- A long decoder 1000 with CV 1 = 10. -/
def withLong : State := withDec fun d => { d with address := 1000, addrLong := true, cv := [(1, 10)] }

/-- V136. -/
theorem test_pomRead_long : (after (.dccPomReadLong 1000 0 0 0xCF) withLong).dec.ch2Q = [[0xAC, 0x93]] := by decide

/-- V133, V134: a write to the decoder's own address clears the latch and changes no CV. -/
theorem test_pomWrite : (after (.dccPomWriteShort 3 28 0x22 0xD1) withCv8).dec.cv = [(8, 0x22)] ∧
    (after (.dccPomWriteShort 3 28 0x22 0xD1) withCv8).dec.ch1BroadcastEnabled = false ∧
    (after (.dccPomWriteBroadcast 28 0x22 0xD2) withCv8).dec.ch1BroadcastEnabled = true ∧
    (after (.dccPomWriteLong 1000 28 0x22 0xF9) withLong).dec.ch1BroadcastEnabled = false := by decide

/-- V134. -/
theorem test_pomWriteBit : (after (.dccPomWriteBitShort 3 28 0xF true 5 0x0A) withCv8).dec.ch1BroadcastEnabled = false ∧
    (after (.dccPomWriteBitBroadcast 28 0xF true 5 0x09) withCv8).dec.ch1BroadcastEnabled = true ∧
    (after (.dccPomWriteBitLong 1000 28 0xF true 5 0x22) withLong).dec.ch1BroadcastEnabled = false := by decide

/-- V118, V134, V135: group one, state F0 lowest. -/
theorem test_functionG1 :
    (after (.dccFunctionG1Short 3 0x12 0x91) State.reset).out.cmdOut = some (.function .short 3 0 0b00101) ∧
    (after (.dccFunctionG1Broadcast 0x12 0x92) State.reset).dec.ch1Q = [[0xA3, 0xAC]] ∧
    (after (.dccFunctionG1Long 3 0x12 0x51) (withDec fun d => { d with addrLong := true })).dec.ch1BroadcastEnabled = false := by
  decide

/-- V119. -/
theorem test_functionG2F5 :
    (after (.dccFunctionG2F5Short 127 15 0xC0) State.reset).out.cmdOut = some (.function .short 127 5 15) ∧
    (after (.dccFunctionG2F5Long 0 5 0x75) State.reset).out.cmdOut = some (.function .long 0 5 5) ∧
    (after (.dccFunctionG2F5Broadcast 5 0xB5) State.reset).dec.rotIndex = 1 := by decide

/-- V120. -/
theorem test_functionG2F9 :
    (after (.dccFunctionG2F9Short 3 15 0xAC) State.reset).out.cmdOut = some (.function .short 3 9 15) ∧
    (after (.dccFunctionG2F9Long 10239 3 0xBB) State.reset).out.cmdOut = some (.function .long 10239 9 3) ∧
    (after (.dccFunctionG2F9Broadcast 3 0xA3) State.reset).dec.rotIndex = 1 := by decide

/-- V138, P7: the rerailing search, 1000 seconds capped to 255. -/
theorem test_rerail : (after (.dccExtFunctionBroadcast 2 0xDC) (withDec fun d =>
      { d with decoderClass := .stationary, uptimeS := 1000 })).dec.ch1Q = [[0xA3, 0xAC]] ∧
    (after (.dccExtFunctionBroadcast 2 0xDC) (withDec fun d =>
      { d with decoderClass := .stationary, uptimeS := 1000 })).dec.ch2Q = [[0x2B, 0x33]] := by decide

/-- V149, V136, P4. -/
theorem test_extFunction : (after (.dccExtFunctionShort 3 1 0xDC) (withDec fun d =>
      { d with extType := 5, extPosition := 0x64 })).dec.ch2Q = [[0x8E, 0x6C, 0x47]] ∧
    (after (.dccExtFunctionLong 1000 1 0xF4) withLong).dec.ch2Q = [[0x8E, 0xAC, 0xAC]] ∧
    (after (.dccExtFunctionShort 3 3 0xDE) (withDec fun d => { d with cvCursor := 2 })).dec.cvAutoActive = true ∧
    (after (.dccExtFunctionShort 3 3 0xDE) (withDec fun d => { d with cvCursor := 2 })).dec.cvCursor = 0 := by decide

/-- A decoder with data space 5 = 41 42. -/
def withDs5 : State := withDec fun d => { d with ds := [{ num := 5, bytes := [0x41, 0x42] }] }

/-- V150. -/
theorem test_dataSpaceRead : (after (.dccDataSpaceReadShort 3 5 1 0xD8) withDs5).dec.ch1Q = [[0xAC, 0x72]] ∧
    (after (.dccDataSpaceReadShort 3 5 1 0xD8) withDs5).dec.ch2Q = [[0x96, 0xAA]] ∧
    (after (.dccDataSpaceReadShort 3 5 2 0xDB) withDs5).out.responseTriggered = some false := by decide

/-- V136; the Broadcast form is never own. -/
theorem test_dataSpaceRead_absent : (after (.dccDataSpaceReadLong 1000 5 0 0xF1) withLong).out.responseTriggered = some false ∧
    (after (.dccDataSpaceReadBroadcast 5 0 0xDA) withDs5).dec.ch2Q = [] := by decide

/-- V147. -/
theorem test_accessory : (after (.dccAccessory 5 0 true 2 0x0F) (withDec fun d =>
      { d with decoderClass := .stationary, address := 453 })).dec.ch2Q = [[0xB2, 0xA3]] ∧
    (after (.dccAccessory 5 0 true 2 0x0F) (withDec fun d =>
      { d with decoderClass := .stationary, address := 453 })).dec.accessoryMask = 4 := by decide

/-- P3, steps 3 and 6. -/
theorem test_accessory_stat4 : (after (.dccAccessory 5 7 true 7 0x7A) (withDec fun d =>
      { d with decoderClass := .stationary, statusKind := .stat4, address := 5, accessoryMask := 1 })).dec.ch2Q = [[0x8B, 0xAA]] ∧
    (after (.dccAccessory 5 7 false 2 0x77) (withDec fun d =>
      { d with decoderClass := .stationary, address := 5, accessoryMask := 5 })).dec.accessoryMask = 1 := by decide

/-- V125: an idle packet changes nothing; V128: a wrong check byte is not looked at. -/
theorem test_rawPacket : (after (.trigDccPacket [0xFF, 0x00, 0xFF]) State.reset).dec = Decoder.reset ∧
    (after (.trigDccPacket [0x03, 0xE4, 0x07, 0x00, 0xFF]) withCv8).dec.ch2Q = [[0xAC, 0x4D]] := by decide

/-- P4, step 3. -/
theorem test_cvAutoTick : (after .opCvAutoTick (withDec fun d =>
      { d with cvAutoActive := true, cvCursor := 2, cv := [(1, 10), (8, 155), (29, 34)] })).dec.ch2Q =
        [[0xC6, 0xAC, 0xAC, 0xAA, 0x1B, 0x4D]] ∧
    (after .opCvAutoTick (withDec fun d =>
      { d with cvAutoActive := true, cvCursor := 2, cv := [(1, 10), (8, 155), (29, 34)] })).dec.cvCursor = 0 := by decide

/-- V205. -/
theorem test_secondTick : (after .opSecondTick (withDec fun d => { d with uptimeS := 0xFFFFFFFF })).dec.uptimeS = 0xFFFFFFFF ∧
    (after .opSecondTick State.reset).dec.uptimeS = 1 := by decide

/-- V212, P2. -/
theorem test_setAddress_and_identity : (after (.opSetAddress 1000 true) State.reset).dec.address = 1000 ∧
    (after (.opSetAddress 1000 true) State.reset).dec.addrLong = true ∧
    (after (.opSetIdentity 0x0A5 0x12345678) State.reset).dec.mfgId = 0x0A5 ∧
    (after (.opSetIdentity 0x0A5 0x12345678) State.reset).dec.productId = 0x12345678 := by decide

/-- P3, P7 and rule R400. -/
theorem test_setClass_and_fields : (after (.opSetClass .stationary .stat4) State.reset).dec.decoderClass = .stationary ∧
    (after (.opSetClass .stationary .stat4) State.reset).dec.statusKind = .stat4 ∧
    (after (.opSetExtPosition 5 0x64) State.reset).dec.extPosition = 0x64 ∧
    (after (.opSetDecoderStateFields 0x81 0x123 0xBEEF) State.reset).dec.dsCaps = 0xBEEF := by decide

/-- V64, V65, P5. -/
theorem test_setExtInfo : (after (.opSetExtInfoEnabled false) (withDec fun d => { d with rotIndex := 1 })).dec.rotIndex = 0 ∧
    (after (.opSetExtInfoEnabled true) (withDec fun d => { d with rotIndex := 1 })).dec.rotIndex = 1 ∧
    (after (.opSetExtInfo 0x5A) State.reset).dec.extInfo = 0x5A := by decide

/-- V200, V202. -/
theorem test_cvSet_and_clear : (after (.opCvSet 8 7) (withDec fun d => { d with cv := [(1, 10), (8, 155), (29, 34)] })).dec.cv =
      [(1, 10), (8, 7), (29, 34)] ∧
    (after .opCvClear (withDec fun d => { d with cv := [(1, 10)], cvCursor := 2, cvAutoActive := true })).dec.cvCursor = 0 := by
  decide

/-- V203. -/
theorem test_dsSet_and_clear : (after (.opDsSet 5 [0x43]) withDs5).dec.ds = [{ num := 5, bytes := [0x43] }] ∧
    (after (.opDsSet 8 []) (withDec fun d =>
      { d with ds := (List.range 8).map fun n => { num := BitVec.ofNat 8 n, bytes := [] } })).dec.ds.length = 8 ∧
    (after .opDsClear withDs5).dec.ds = [] := by decide

/-- V207. -/
theorem test_logonReset : (after .opLogonReset (withDec fun d =>
      { d with logonState := .inSingulation, backoffCounter := 2, backoffValue := 3 })).dec =
    { Decoder.reset with backoffCounter := 2, backoffValue := 3 } := by decide

/-- V209. -/
theorem test_reset : (after .opReset (withDec fun d => { d with ch1Q := [[0xA3, 0xAC]], address := 9 })).dec = Decoder.reset ∧
    (after .opReset (withDec fun d => { d with ch1Q := [[0xA3, 0xAC]] })).out.calls = [] := by decide

/-- V206, V176, V210. -/
theorem test_receiver_controls : (after (.opRxSetContext 3) (withRcv fun r => { r with rxContext := .mobile })).rcv.rxContext = .unknown ∧
    (after .opRxCacheTimeout (withRcv fun r => { r with rxAdrHigh := 0x83 })).rcv.rxAdrHigh = 0 ∧
    (after (.opRxExpectDataSpace 6) (withRcv fun r => { r with rxExpectDs := true, rxExpectDsNum := 5 })).rcv.rxExpectDsNum = 6 := by
  decide

/-- V160, V163. -/
theorem test_read_mobile : heard .mobile [0x9C, 0xA5, 0x96, 0xE2, 0xAC, 0x4D] =
      some [.adrHigh 0x83, .adrLow 0xE8 1000 true, .pom 0x22] ∧
    heard .mobile [0x8E, 0x6C, 0x47, 0xB4, 0x66, 0x69, 0x47, 0x59, 0xB2, 0x9A] =
      some [.ext 5 0x64, .basicInfo 0x5A, .dyn 0x50 7] := by decide

/-- V167, V170. -/
theorem test_read_stationary : heard .stationary [0x8E, 0xA3, 0xB2, 0xA3, 0x69, 0x47, 0x65, 0x9A, 0xB4, 0x66] =
      some [.stat4 4, .stat1 4, .time true 100, .error 7, .stat1 0x5A] ∧
    heard .stationary [0xB2, 0xA3, 0x01, 0xB2, 0x65, 0x9A] = some [.stat1 4, .stat1 0x18] := by decide

/-- Rules R208, R437: a round that counts three bytes and gets two ends with a read of none; a round reads no more than
it counted. The symbols are V160's first two. -/
theorem test_read_none :
    (after (.opRxRead 0 [{ now := 0, count := 3, bytes := [0x9C, 0xA5] }]) State.reset).out =
      { messages := some [.adrHigh 0x83],
        calls := [.available .rx 3, .read .rx (some 0x9C), .read .rx (some 0xA5), .read .rx none] } ∧
    (after (.opRxRead 0 [{ now := 0, count := 1, bytes := [0x9C, 0xA5] }]) State.reset).out.calls =
      [.available .rx 1, .read .rx (some 0x9C)] := by decide

/-- Rules R207, R208: a read during which nothing arrives asks once and delivers nothing. -/
theorem test_read_nothing : (after (.opRxRead 1000 []) State.reset).out = { messages := some [], calls := [.available .rx 0] } := by
  decide

/-- V164, V165 as datagrams on the line. -/
theorem test_line_wide : (after (.dgXpom2 0x11 0x22 0x33 0x44) State.reset).out.messages = some [.xpom 2 0x11 0x22 0x33 0x44] ∧
    (after (.dgCvAuto 8 155) State.reset).out.messages = some [.cvAuto 8 155] ∧
    (after (.dgDecoderUnique 0x0A5 0x12345678) State.reset).out.messages = some [.decoderUnique 0x0A5 0x12345678] ∧
    (after (.dgDecoderState 0 0 0 0x5F) State.reset).out.messages = some [.decoderState 0 0 0 0x5F false] := by decide

/-- V167, V168, V173 as datagrams on the line. -/
theorem test_line_short : (after (.dgPom 0x22) State.reset).out.messages = some [.pom 0x22] ∧
    (after (.dgAdrHigh 0x83) State.reset).rcv.rxAdrHigh = 0x83 ∧
    (after (.dgAdrLow 0xE8) State.reset).out.messages = some [.adrLow 0xE8 232 false] ∧
    (after (.dgStat4 4) State.reset).out.messages = some [.stat4 4] ∧ (after (.dgStat1 4) State.reset).out.messages = some [.stat1 4] ∧
    (after (.dgTime true 100) State.reset).out.messages = some [.time true 100] ∧
    (after (.dgError 7) State.reset).out.messages = some [.error 7] ∧ (after (.dgRerail 42) State.reset).out.messages = some [.rerail 42] := by
  decide

/-- A command station that listens to mobile decoders. -/
def listening : State := withRcv fun r => { r with rxContext := .mobile }

/-- V162, V163, V179 to V182: kinds of the mobile context, and kinds that are never delivered as such. -/
theorem test_line_mobile : (after (.dgExt 5 0x64) listening).out.messages = some [.ext 5 0x64] ∧
    (after (.dgBasicInfo 0x5A) listening).out.messages = some [.basicInfo 0x5A] ∧
    (after (.dgDyn 0x50 7) listening).out.messages = some [.dyn 0x50 7] ∧
    (after (.dgDrivingInfo 9) listening).rcv.rxTotal = 18 ∧ (after (.dgStat2 4) listening).rcv.rxTotal = 36 ∧
    (after (.dgBlock 0xDEADBEEF) listening).rcv.rxTotal = 48 ∧ (after (.dgSrq true 1000) listening).rcv.rxTotal = 36 := by decide

/-- Rules R191, R195, V160, V168: a cached high half, and kinds of the other context on the line. -/
theorem test_line_context :
    (after (.dgAdrLow 0xE8) (withRcv fun r => { r with rxAdrHigh := 0x83 })).out.messages = some [.adrLow 0xE8 1000 true] ∧
    (after (.dgTime true 100) listening).out.messages = some [] ∧ (after (.dgError 7) listening).rcv = listening.rcv ∧
    (after (.dgExt 5 0x64) State.reset).out.messages = some [.stat4 0x15] ∧
    (after (.dgStat1 0x5A) listening).out.messages = some [.basicInfo 0x5A] ∧
    (after (.dgStat4 4) listening).rcv.rxTotal = 18 ∧ (after (.dgBasicInfo 4) State.reset).out.messages = some [.stat1 4] ∧
    (after (.dgDrivingInfo 9) State.reset).out.messages = some [.stat4 9] := by decide

/-- V141, V142, V190. -/
theorem test_line_dataSpace :
    (after (.dgDataSpace [0x41, 0x42] 0xDF) (withRcv fun r => { r with rxExpectDs := true, rxExpectDsNum := 5 })).out.messages =
      some [.dataSpace 5 2 [0x41, 0x42] 0xDF true] ∧
    (after (.dgDataSpace [0x41, 0x42] 0xDF) (withRcv fun r => { r with rxExpectDs := true, rxExpectDsNum := 6 })).out.messages =
      some [.dataSpace 6 2 [0x41, 0x42] 0xDF false] := by decide

/-- V171, V172 as symbols on the line. -/
theorem test_line_symbols : (after (.symData 0) State.reset).rcv.rxAcc.length = 6 ∧
    (after .symAck1 (after (.symData 0) State.reset)).rcv.rxAcc = [] ∧ (after .symAck2 (after (.symData 0) State.reset)).rcv.rxAcc = [] ∧
    (after .symNack (after (.symData 0) State.reset)).rcv.rxAcc = [] := by decide

/-- V32 as two symbols: the second completes the datagram. -/
theorem test_line_symbols_complete :
    (after (.symData 0x22) (after (.symData 0) State.reset)).out.messages = some [.pom 0x22] := by decide

/-! ### Witnesses: states and operands that meet the hypotheses of the obligations -/

/-- Witness of StepRunsDecodedInstruction. -/
theorem wit_StepRunsDecodedInstruction :
    takeTrigger [.host 0x10 [0x22] [], .dcc [0xFE, 0x00, 0xFE]] = some (.dcc [0xFE, 0x00, 0xFE], [.host 0x10 [0x22] []]) ∧
    decode Config.default (.dcc [0xFE, 0x00, 0xFE]) = .ok (.dccGetDataStart 0xFE) := by
  exact ⟨by decide, rfl⟩

/-- Witness of IdleAndUnlistedCodesChangeNothing. -/
theorem wit_IdleAndUnlistedCodesChangeNothing :
    State.reset.port = [] ∧ takeTrigger [.host 0x23 [] []] = some (.host 0x23 [] [], []) ∧ 0x23#8 ∉ listedCodes := by decide

/-- Witness of TriggersAreTakenInOrder: a host reset goes before a cutout that was presented first, and a cutout before
a packet and a host operation (rule R425). -/
theorem wit_TriggersAreTakenInOrder :
    takeTrigger [.cutout 0, .host 0x00 [] [], .resetInput] = some (.host 0x00 [] [], [.cutout 0, .resetInput]) ∧
    takeTrigger [.host 0x10 [0x22] [], .dcc [0xFE, 0x00, 0xFE], .cutout 30] =
      some (.cutout 30, [.host 0x10 [0x22] [], .dcc [0xFE, 0x00, 0xFE]]) ∧
    (0x10 : Byte) ≠ 0x00 := by decide

/-- Witness of DecodeInvertsEncode, with the longest operands and a raw packet. -/
theorem wit_DecodeInvertsEncode :
    Config.default.ok ∧ (Instr.dccSelect 0xFFF 0 0 [1, 2, 3] 0).wf = true ∧ (Instr.dccPomReadLong 0x27FF 1023 0 0).wf = true ∧
    (Instr.dgDataSpace (List.replicate 16 0) 0).wf = true ∧ (Instr.trigDccPacket (List.replicate 15 0)).wf = true ∧
    classify Config.default (List.replicate 15 0) = .none := by decide

/-- Witness of UnmatchedPacketsChangeNothing, each clause. -/
theorem wit_UnmatchedPacketsChangeNothing :
    classify State.reset.cfg [0xFF, 0x00, 0xFF] = .none ∧ [0x03#8, 0x03].length < 3 ∧ 12 < (List.replicate 13 0x03#8).length ∧
    Config.default.ok := by decide

/-- Witness of SymbolCodeLaws, each clause. -/
theorem wit_SymbolCodeLaws :
    Config.default.encOk ∧ weight 0x1F ≠ 4 ∧ decode4of8 Config.default 0x87 = .invalid ∧
    decode4of8 Config.default 0x33 = .data 63 := by decide

/-- Witness of UnassignedSymbols and of UnpackInvertsEncodeRaw. -/
theorem wit_UnassignedSymbols : Config.default.encOk := by decide

/-- Witness of CrcLaws: the last bit of the last byte. -/
theorem wit_CrcLaws : 8 < [0x31#8, 0x32, 0x33, 0x34, 0x35, 0x36, 0x37, 0x38, 0x39].length ∧ 7 < 8 := by decide

/-- Witness of RotationLaw: eight calls fill an empty queue. -/
theorem wit_RotationLaw : State.reset.dec.rotIndex = 0 ∧ State.reset.dec.ch1Q.length + 8 ≤ State.reset.cfg.ch1Depth := by decide

/-- Witness of QueuedEntriesKeepTheirPlace. -/
theorem wit_QueuedEntriesKeepTheirPlace :
    exec (.opSendPom 0) State.reset = .next (after (.opSendPom 0) State.reset) ∧ Instr.opSendPom 0 ≠ .opReset ∧
    ∀ elapsed, Instr.opSendPom 0 ≠ .trigCutoutStart elapsed := by
  exact ⟨rfl, by decide, fun _ => by simp⟩

/-- A state with an entry in each queue and a half-read datagram, and the parts of the invariant it has. -/
def busy : State :=
  { State.reset with
    dec := { Decoder.reset with
      ch1Q := [[0x9C, 0xA5]], ch2Q := [[0xAC, 0x4D]], cv := [(8, 0x22)], ds := [{ num := 5, bytes := [0x41] }],
      rotIndex := 2, extInfoEnabled := true }
    rcv := { Receiver.reset with rxContext := .mobile, rxState := .reading, rxTotal := 18, rxAcc := bitsOf 12 0x309 } }

theorem busy_inv : Safety.Inv busy := by
  refine ⟨by decide, by decide, by decide, by decide, by decide, ?_⟩
  exact ⟨by decide, by decide, by decide, by decide⟩

/-- Witness of TransmittedBytesHaveWeightFour. -/
theorem wit_TransmittedBytesHaveWeightFour :
    Safety.Inv busy ∧ exec (.trigCutoutStart 193) busy = .next (after (.trigCutoutStart 193) busy) ∧
    Call.write .tx [0x9C, 0xA5] ∈ (after (.trigCutoutStart 193) busy).out.calls ∧ 0xA5#8 ∈ [0x9C#8, 0xA5] := by
  exact ⟨busy_inv, rfl, by decide, by decide⟩

/-- Witness of StepKeepsTheInvariant. -/
theorem wit_StepKeepsTheInvariant :
    Safety.Inv busy ∧ step (present (.cutout 193) busy) = .next (after (.trigCutoutStart 193) busy) := by
  exact ⟨busy_inv, rfl⟩

/-- Parameters with the least capacities rule R9 allows. -/
def least : Config := { Config.default with ch1Depth := 1, ch2Depth := 1, cvCapacity := 1, dsCapacity := 1, dsMaxLen := 1 }

/-- A state with full stores. -/
def full : State :=
  { State.reset with cfg := least, dec := { Decoder.reset with cv := [(8, 0x22)], ds := [{ num := 5, bytes := [0x41] }] } }

/-- Witness of CvSetWritesOneEntry: a key in a full map, a new key with room for one, a new key without room. -/
theorem wit_CvSetWritesOneEntry :
    8 ∈ full.dec.cv.map (·.1) ∧ (1 ∉ ([] : CvMap).map (·.1) ∧ ([] : CvMap).length < least.cvCapacity) ∧
    (1 ∉ full.dec.cv.map (·.1) ∧ full.cfg.cvCapacity ≤ full.dec.cv.length) ∧ (1 : BitVec 24) ≠ 8 := by decide

/-- Witness of DsSetWritesOneRecord: too long, the longest, in the store, a new number with room and without. -/
theorem wit_DsSetWritesOneRecord :
    full.cfg.dsMaxLen < [0x41#8, 0x42].length ∧ [0x41#8].length ≤ full.cfg.dsMaxLen ∧ 5 ∈ full.dec.ds.map (·.num) ∧
    (([] : List DsRecord).length < least.dsCapacity ∧ 6 ∉ ([] : List DsRecord).map (·.num)) ∧
    (6 ∉ full.dec.ds.map (·.num) ∧ full.cfg.dsCapacity ≤ full.dec.ds.length) ∧ (6 : Byte) ≠ 5 := by decide

/-- Witness of every statement over a read: one round gives exactly the bytes, whatever they are. -/
theorem wit_ReadGives (bytes : List Byte) : polledBytes (poll 1000 [roundOf bytes]) = bytes := by
  simp [poll, pollRounds]

/-- Witness of PollStopsAtTheTimeout: a round that reads less than waits, one that reads all, and one that counted more
than it gets. -/
theorem wit_PollStopsAtTheTimeout :
    ({ now := 0, count := 1, bytes := [0x9C, 0xA5] } : RxSample).count ≤ [0x9C#8, 0xA5].length ∧
    (roundOf [0x9C, 0xA5]).count ≤ (roundOf [0x9C, 0xA5]).bytes.length ∧
    [0x9C#8, 0xA5].length < ({ now := 0, count := 3, bytes := [0x9C, 0xA5] } : RxSample).count := by decide

/-- Witness of ReadDeliversShortDatagrams, ReadDeliversLongDatagrams and LineRowsAreReads: a waiting receiver in the mobile
context and in another, with an empty cache. -/
theorem wit_Waiting :
    listening.cfg.encOk ∧ Waiting listening.rcv ∧ listening.rcv.rxContext = .mobile ∧ listening.rcv.rxAdrHigh = 0 ∧
    Waiting State.reset.rcv ∧ State.reset.rcv.rxContext ≠ .mobile := by
  refine ⟨by decide, ⟨rfl, rfl, rfl⟩, rfl, rfl, ⟨rfl, rfl, rfl⟩, by decide⟩

/-- Witness of LineRowsAreReads, its other clauses: a row of each kind, a cached high half, no data and the most, a
receiver that holds 6 bits, one that reads on and one a symbol short of its datagram. -/
theorem wit_LineRowsAreReads :
    lineBytes Config.default (.dgPom 0x22) = some [0xAC, 0x4D] ∧
    lineBytes Config.default (.symData 63) = some [0x33] ∧ ([] : List Byte).length ≤ 16 ∧
    (List.replicate 16 0#8).length ≤ 16 ∧ Waiting { Receiver.reset with rxAdrHigh := 0x83 } ∧
    ((after (.symData 3) State.reset).rcv.rxState = .idle ∧
      (after (.symData 3) State.reset).rcv.rxAcc = bitsOf 6 (3 : BitVec 2).toNat) ∧
    (busy.rcv.rxExpectDs = false ∧ busy.rcv.rxState = .reading ∧ busy.rcv.rxTotal = 18 ∧
      busy.rcv.rxAcc = bitsOf 12 (0x300 + (9 : Byte).toNat)) ∧
    ((after (.dgStat2 4) State.reset).rcv.rxState = .reading ∧
      (after (.dgStat2 4) State.reset).rcv.rxAcc.length + 6 < (after (.dgStat2 4) State.reset).rcv.rxTotal.toNat) ∧
    ({ Receiver.reset with rxExpectDs := true } : Receiver).rxExpectDs = true := by
  refine ⟨by decide, by decide, by decide, by decide, ⟨rfl, rfl, rfl⟩, by decide, by decide, by decide, rfl⟩

/-- Witness of AddressHalvesPair: a cached high half and none. -/
theorem wit_AddressHalvesPair :
    State.reset.cfg.encOk ∧ Waiting { Receiver.reset with rxAdrHigh := 0x83 } ∧
    ({ Receiver.reset with rxAdrHigh := 0x83 } : Receiver).rxAdrHigh ≠ 0 ∧ Waiting Receiver.reset ∧
    Receiver.reset.rxAdrHigh = 0 := by
  refine ⟨by decide, ⟨rfl, rfl, rfl⟩, by decide, ⟨rfl, rfl, rfl⟩, rfl⟩

/-- Witness of NonDataBytesResynchronise: an acknowledgement between a cached half and its other half. -/
theorem wit_NonDataBytesResynchronise :
    listening.rcv.rxExpectDs = false ∧ (∀ v, decode4of8 listening.cfg 0xF0 ≠ .data v) ∧
    polledBytes (poll 1000 [roundOf [0x9C, 0xA5, 0xF0, 0x96, 0xE2]]) = [0x9C, 0xA5] ++ 0xF0 :: [0x96, 0xE2] := by
  refine ⟨rfl, ?_, rfl⟩
  have h : decode4of8 listening.cfg 0xF0 = .ack1 := by decide
  intro v; rw [h]; simp

/-- Witness of ReadsContinueOneAnother: a datagram cut in two, and a read of nothing. -/
theorem wit_ReadsContinueOneAnother :
    listening.rcv.rxExpectDs = false ∧ polledBytes (poll 1000 []) = [] ∧
    polledBytes (poll 1000 [roundOf [0x8E, 0x6C, 0x47]]) =
      polledBytes (poll 1000 [roundOf [0x8E, 0x6C]]) ++ polledBytes (poll 1000 [roundOf [0x47]]) := by decide

/-- Witness of KindsNeverDelivered: a half-read datagram that a context change could turn into DRIVING_INFO's bits. -/
theorem wit_KindsNeverDelivered : AccumulatorOk busy.rcv ∧ AccumulatorOk Receiver.reset := by
  exact ⟨⟨by decide, by decide, by decide, by decide⟩, .inl rfl⟩

/-- Witness of DataSpaceReadDelivers: no data, and the longest with bits 7 to 5 of the length byte set. -/
theorem wit_DataSpaceReadDelivers :
    Config.default.encOk ∧ (0x00#8 &&& 0x1F#8).toNat = ([] : List Byte).length ∧
    unpack [0, 0, 0] = bitsOfBytes (responseBytes 0x00 [] 0x00) ++ [false, false] ∧
    (0xF0#8 &&& 0x1F#8).toNat = (List.replicate 16 0x00#8).length ∧
    unpack (60 :: List.replicate 23 0) = bitsOfBytes (responseBytes 0xF0 (List.replicate 16 0x00) 0x00) ++ [] := by decide

/-- Witness of DataSpaceReadFails, each clause: an invalid byte, one symbol, a length of 17, a byte too few. -/
theorem wit_DataSpaceReadFails :
    Config.default.encOk ∧ decode4of8 Config.default 0x01 = .invalid ∧ [0xAC#8].length < 2 ∧
    (octets (unpack (4 :: 16 :: List.replicate 24 0)) = 0x11 :: List.replicate 18 0x00 ∧ 16 < (0x11#8 &&& 0x1F#8).toNat) ∧
    (octets (unpack [0, 36, 5, 2, 55]) = [0x02, 0x41, 0x42] ∧ [0x41#8, 0x42].length ≠ (0x02#8 &&& 0x1F#8).toNat + 1) := by
  decide

/-- Witness of FlippedBitIsFlagged. -/
theorem wit_FlippedBitIsFlagged :
    Config.default.encOk ∧ [0x41#8, 0x42].length ≤ 16 ∧ Room State.reset.cfg State.reset.dec ∧
    ({ Receiver.reset with rxExpectDs := true, rxExpectDsNum := 5 } : Receiver).rxExpectDs = true ∧
    1 < [0x41#8, 0x42].length := by
  refine ⟨by decide, by decide, ⟨by decide, by decide⟩, rfl, by decide⟩

/-- Witness of SentMessagesAreReceived: room in both queues, both rotation steps, a waiting receiver. -/
theorem wit_SentMessagesAreReceived :
    Config.default.encOk ∧ Room State.reset.cfg State.reset.dec ∧ Waiting listening.rcv ∧ listening.rcv.rxContext = .mobile ∧
    State.reset.rcv.rxContext ≠ .mobile ∧ State.reset.dec.rotIndex = 0 ∧
    (withDec fun d => { d with rotIndex := 1 }).dec.rotIndex = 1 ∧ State.reset.rcv.rxAdrHigh = 0 := by
  refine ⟨by decide, ⟨by decide, by decide⟩, ⟨rfl, rfl, rfl⟩, rfl, by decide, rfl, rfl, rfl⟩

/-- Witness of LogonEnableSingulates: every state, counter zero and not. -/
theorem wit_LogonEnableSingulates :
    Decoder.reset.logonState = .idle ∧ Decoder.reset.backoffCounter = 0 ∧
    ({ Decoder.reset with logonState := .registered } : Decoder).logonState = .registered ∧
    ({ Decoder.reset with backoffCounter := 1 } : Decoder).backoffCounter ≠ 0 := by decide

/-- Witness of BackoffDelaysAndGrows. -/
theorem wit_BackoffDelaysAndGrows :
    logonCode State.reset.dec.logonState < 3 ∧ 1 ≤ State.reset.cfg.backoffStep ∧
    State.reset.dec.backoffValue ≠ 0xFFFFFFFF := by decide

/-- Witness of SelectAndLogonAssign: the named decoder and another. -/
theorem wit_SelectAndLogonAssign :
    ((0 : BitVec 12) = State.reset.dec.mfgId ∧ (0 : Word32) = State.reset.dec.productId ∧
      logonCode State.reset.dec.logonState < 3) ∧ ¬ ((1 : BitVec 12) = State.reset.dec.mfgId) := by decide

/-- Witness of AccessorySetsItsBit: the decoder's own address and another; 517 answers to 5. -/
theorem wit_AccessorySetsItsBit :
    ownAccessory (~~~7#3 ++ 5#6) { Decoder.reset with decoderClass := .stationary, address := 517 } = true ∧
    ownAccessory (~~~7#3 ++ 6#6) { Decoder.reset with decoderClass := .stationary, address := 517 } = false := by decide

/-- Witness of CvAutoTickSendsOneEntry: the last entry, and an empty map. -/
theorem wit_CvAutoTickSendsOneEntry :
    ({ Decoder.reset with cv := [(1, 10), (8, 155)], cvCursor := 1, cvAutoActive := true } : Decoder).cvCursor <
      ({ Decoder.reset with cv := [(1, 10), (8, 155)], cvCursor := 1, cvAutoActive := true } : Decoder).cv.length ∧
    Decoder.reset.cvAutoActive = false ∧ Decoder.reset.cv = [] := by decide

/-- Witness of CvAutoVisitsTheMapInOrder: eight ticks over three entries. -/
theorem wit_CvAutoVisitsTheMapInOrder :
    let s := withDec fun d => { d with cv := [(1, 10), (8, 155), (29, 34)], cvAutoActive := true }
    s.dec.cv ≠ [] ∧ s.dec.cvAutoActive = true ∧ s.dec.cvCursor = 0 ∧ s.dec.ch2Q.length + 8 ≤ s.cfg.ch2Depth := by decide

/-- Witness of LogonStateMovesForward, LatchIsSetOnlyByReset and ConfigurationChangesOnlyByTheHost: each of the changes they
speak of happens. -/
theorem wit_WholeMachineRules :
    exec .opReset busy = .next (after .opReset busy) ∧ (after .opLogonReset busy).dec.logonState = .idle ∧
    (after .opCvClear busy).dec.cv ≠ busy.dec.cv ∧ (after .opDsClear busy).dec.ds ≠ busy.dec.ds ∧
    (after (.opSetIdentity 1 1) busy).dec.mfgId ≠ busy.dec.mfgId ∧
    (after (.opSetClass .stationary .stat4) busy).dec.decoderClass ≠ busy.dec.decoderClass ∧
    (after (.opSetExtInfoEnabled false) busy).dec.extInfoEnabled ≠ busy.dec.extInfoEnabled ∧
    (after (.opSetExtInfo 1) busy).dec.extInfo ≠ busy.dec.extInfo ∧
    (after (.opSetExtPosition 1 1) busy).dec.extType ≠ busy.dec.extType ∧
    (after (.opSetDecoderStateFields 1 1 1) busy).dec.dsFlags ≠ busy.dec.dsFlags ∧
    (after (.dccLogonAssign 0 0 0 9 [] 0) busy).dec.address ≠ busy.dec.address ∧
    (after .opSecondTick busy).dec.uptimeS ≠ busy.dec.uptimeS ∧
    (after (.opRxSetContext 2) busy).rcv.rxContext ≠ busy.rcv.rxContext := by
  refine ⟨rfl, ?_⟩
  decide

/-- Witness of HalvesAreDisjoint: two states with one decoder half and two receiver halves. -/
theorem wit_HalvesAreDisjoint :
    Instr.opSendPom 0 ≠ .opReset ∧ exec (.opSendPom 0) State.reset = .next (after (.opSendPom 0) State.reset) ∧
    State.reset.cfg = listening.cfg ∧ State.reset.dec = listening.dec ∧ State.reset.rcv ≠ listening.rcv := by
  refine ⟨by decide, rfl, rfl, rfl, by decide⟩

end Sys2Proof.Tests
end

/-! PROOFS. The invariant of the engine (rules R9, R35, R36, R43 to R45, R181, R473): the state after reset has it and
every step keeps it. It splits into a part on each half of the state, and each shared operation that `exec` is made of
touches one half. -/

namespace Sys2Proof.Invariant

open Sys2Proof.Machine Sys2Proof.Safety

section Lemmas

variable {cfg : Config} {d : Decoder} {r : Receiver} {s t : State}

/-! ### The halves of the invariant -/

/-- The part of the invariant that is about the decoder half. -/
structure DecoderOk (cfg : Config) (d : Decoder) : Prop where
  queues : QueuesOk cfg d
  cv : CvOk cfg d
  ds : DsOk cfg d
  rotation : RotationOk d

theorem inv_iff : Inv s ↔ s.cfg.ok ∧ DecoderOk s.cfg s.dec ∧ AccumulatorOk s.rcv :=
  ⟨fun ⟨hc, hq, hcv, hds, hrot, hr⟩ => ⟨hc, ⟨hq, hcv, hds, hrot⟩, hr⟩,
    fun ⟨hc, ⟨hq, hcv, hds, hrot⟩, hr⟩ => ⟨hc, hq, hcv, hds, hrot, hr⟩⟩

/-- The decoder half after reset meets its part under any parameters: its stores are empty (rule R52). -/
theorem decoderOk_reset (cfg : Config) : DecoderOk cfg Decoder.reset where
  queues := by simp [QueuesOk, Decoder.reset]
  cv := by simp [CvOk, Decoder.reset]
  ds := by simp [DsOk, Decoder.reset]
  rotation := by simp [RotationOk, Decoder.reset]

theorem accumulatorOk_of_idle (hi : r.rxState = .idle) (h : r.rxAcc.length = 0 ∨ r.rxAcc.length = 6) :
    AccumulatorOk r := by
  simpa only [AccumulatorOk, hi] using h

theorem accumulatorOk_rxClear (r : Receiver) : AccumulatorOk (rxClear r) :=
  accumulatorOk_of_idle rfl (.inl rfl)

/-! ### The entries the engine builds -/

/-- Every packed byte is an entry of the table (rule R154). -/
theorem mem_table_of_mem_encodeRaw (hc : cfg.ok) {bits : List Bool} {b : Byte} (hb : b ∈ encodeRaw cfg bits) :
    b ∈ cfg.enc4of8 := by
  obtain ⟨⟨hlen, -⟩, -⟩ := hc
  obtain ⟨v, hv, rfl⟩ := mem_encodeRaw hb
  exact encode4of8_mem hlen hv

/-- Up to 22 symbols, the least `ENTRY_MAX_BYTES` (rule R9), are an entry. -/
theorem encodeRaw_entryOk (hc : cfg.ok) {bits : List Bool} (h1 : 1 ≤ bits.length) (h2 : bits.length ≤ 132) :
    EntryOk cfg (encodeRaw cfg bits) := by
  obtain ⟨-, hmax, -⟩ := id hc
  have hlen := length_encodeRaw cfg bits
  exact ⟨by omega, by omega, fun _ => mem_table_of_mem_encodeRaw hc⟩

/-- Three to 24 symbols, split after the second, are two entries (rule R224). -/
theorem encodeRaw_split_entryOk (hc : cfg.ok) {bits : List Bool} (h1 : 13 ≤ bits.length) (h2 : bits.length ≤ 144) :
    EntryOk cfg ((encodeRaw cfg bits).take 2) ∧ EntryOk cfg ((encodeRaw cfg bits).drop 2) := by
  obtain ⟨-, hmax, -⟩ := id hc
  have hlen := length_encodeRaw cfg bits
  refine ⟨⟨?_, ?_, fun _ hb => mem_table_of_mem_encodeRaw hc (List.mem_of_mem_take hb)⟩,
    ?_, ?_, fun _ hb => mem_table_of_mem_encodeRaw hc (List.mem_of_mem_drop hb)⟩ <;>
  · simp only [List.length_take, List.length_drop]
    omega

/-! ### Enqueueing -/

theorem enqueue_ok {ch : Channel} {e : Entry} (hd : DecoderOk cfg d) (he : EntryOk cfg e) :
    DecoderOk cfg (enqueue cfg ch e d) where
  queues := enqueue_queuesOk hd.queues he
  cv := by simpa only [CvOk, enqueue_cv, enqueue_cvCursor] using hd.cv
  ds := by simpa only [DsOk, enqueue_ds] using hd.ds
  rotation := by simpa only [RotationOk, enqueue_rotIndex, enqueue_extInfoEnabled] using hd.rotation

theorem enqueueSplit_ok {e : Entry} (hd : DecoderOk cfg d) (he : EntryOk cfg (e.take 2) ∧ EntryOk cfg (e.drop 2)) :
    DecoderOk cfg (enqueueSplit cfg e d) where
  queues := enqueueSplit_queuesOk hd.queues he.1 he.2
  cv := by simpa only [CvOk, enqueueSplit_cv, enqueueSplit_cvCursor] using hd.cv
  ds := by simpa only [DsOk, enqueueSplit_ds] using hd.ds
  rotation := by simpa only [RotationOk, enqueueSplit_rotIndex, enqueueSplit_extInfoEnabled] using hd.rotation

/-- Every send of a datagram in one piece (rules R104, R222): its payload has at most 44 bits. -/
theorem enqueueDatagram_ok (hc : cfg.ok) (hd : DecoderOk cfg d) {ch : Channel} {id : BitVec 4} {p n : Nat}
    (hn : n ≤ 44) : DecoderOk cfg (enqueue cfg ch (encodeDatagram cfg id p n) d) :=
  enqueue_ok hd (encodeRaw_entryOk hc (by simp; omega) (by simp; omega))

/-- Every send of a 48-bit datagram (rules R224, R239, R240). -/
theorem enqueueSplitDatagram_ok (hc : cfg.ok) (hd : DecoderOk cfg d) {id : BitVec 4} {p : Nat} :
    DecoderOk cfg (enqueueSplit cfg (encodeDatagram cfg id p 44) d) :=
  enqueueSplit_ok hd (encodeRaw_split_entryOk hc (by simp) (by simp))

theorem sendServiceRequest_ok (hc : cfg.ok) (hd : DecoderOk cfg d) (address : BitVec 16) (ext : Bool) :
    DecoderOk cfg (sendServiceRequest cfg address ext d) := by
  unfold sendServiceRequest
  split
  · exact hd
  · exact enqueue_ok hd (encodeRaw_entryOk hc (by simp) (by simp))

theorem sendXpom_ok (hc : cfg.ok) (hd : DecoderOk cfg d) (seq d0 d1 d2 d3 : Byte) :
    DecoderOk cfg (sendXpom cfg seq d0 d1 d2 d3 d) := by
  unfold sendXpom
  split
  · exact hd
  · exact enqueueDatagram_ok hc hd (by decide)

theorem sendTime_ok (hc : cfg.ok) (hd : DecoderOk cfg d) (value : Byte) (unit : Bool) :
    DecoderOk cfg (sendTime cfg value unit d) := by
  unfold sendTime
  split
  · exact hd
  · exact enqueueDatagram_ok hc hd (by decide)

theorem sendRerail_ok (hc : cfg.ok) (hd : DecoderOk cfg d) (seconds : BitVec 16) :
    DecoderOk cfg (sendRerail cfg seconds d) := by
  unfold sendRerail
  split
  · exact hd
  · exact enqueueDatagram_ok hc hd (by decide)

/-- The longest response, 16 data bytes, makes 24 symbols (rules R168, R247). -/
theorem sendDataSpace_ok (hc : cfg.ok) (hd : DecoderOk cfg d) (num : Byte) (data : List Byte) :
    DecoderOk cfg (sendDataSpace cfg num data d) := by
  unfold sendDataSpace
  split
  · exact hd
  · next hlong =>
    have hlen : data.length ≤ 16 := Nat.le_of_not_lt hlong
    refine enqueueSplit_ok hd (encodeRaw_split_entryOk hc ?_ ?_) <;>
    · simp [dataSpaceBytes]
      omega

/-- The rotation reaches the optional step only while it is enabled (rule R226). -/
theorem rotNext_eq_two {en : Bool} {i : Fin 3} (h : rotNext en i = 2) : en = true := by
  revert en i
  decide

theorem sendAddress_ok (hc : cfg.ok) (hd : DecoderOk cfg d) (a : BitVec 14) (long : Bool) :
    DecoderOk cfg (sendAddress cfg a long d) := by
  have henq : DecoderOk cfg (enqueue cfg .one (rotationBytes cfg a long d) d) := by
    unfold rotationBytes
    split <;> exact enqueueDatagram_ok hc hd (by decide)
  refine { queues := henq.queues, cv := henq.cv, ds := henq.ds, rotation := fun h => ?_ }
  simpa [sendAddress] using rotNext_eq_two h

/-! ### Packets and ticks -/

theorem clearLatch_ok (hd : DecoderOk cfg d) (cmd : Cmd) : DecoderOk cfg (clearLatch cmd d) := by
  unfold clearLatch
  split
  · exact { hd with }
  · exact hd

theorem singulate_ok (hc : cfg.ok) (hd : DecoderOk cfg d) : DecoderOk cfg (singulate cfg d).1 := by
  unfold singulate
  split
  · exact { enqueueSplitDatagram_ok hc hd with }
  · exact { hd with }

theorem handleLogonEnable_ok (hc : cfg.ok) (hd : DecoderOk cfg d) : DecoderOk cfg (handleLogonEnable cfg d).1 := by
  unfold handleLogonEnable
  cases d.logonState with
  | idle => exact singulate_ok hc { hd with }
  | waitingForLogon | inSingulation => exact singulate_ok hc hd
  | announced | registered => exact hd

theorem handleSelect_ok (hd : DecoderOk cfg d) (mfg : BitVec 12) (uid : Word32) :
    DecoderOk cfg (handleSelect mfg uid d).1 := by
  unfold handleSelect
  split
  · exact { hd with }
  · exact hd

theorem handleLogonAssign_ok (hc : cfg.ok) (hd : DecoderOk cfg d) (mfg : BitVec 12) (uid : Word32) (a : BitVec 14) :
    DecoderOk cfg (handleLogonAssign cfg mfg uid a d).1 := by
  unfold handleLogonAssign
  split
  · dsimp only
    refine enqueueSplitDatagram_ok hc ?_
    exact { hd with }
  · exact hd

theorem handlePomRead_ok (hc : cfg.ok) (hd : DecoderOk cfg d) (cv : BitVec 11) :
    DecoderOk cfg (handlePomRead cfg cv d).1 := by
  unfold handlePomRead
  split
  · dsimp only
    exact enqueueDatagram_ok hc hd (by decide)
  · exact hd

theorem handleAccessory_ok (hc : cfg.ok) (hd : DecoderOk cfg d) (activate : Bool) (output : BitVec 3) :
    DecoderOk cfg (handleAccessory cfg activate output d).1 := by
  unfold handleAccessory
  dsimp only
  split <;>
  · dsimp only
    refine enqueueDatagram_ok hc ?_ (by decide)
    exact { hd with }

/-- The toggle keeps the cursor or puts it at 0, which is in range of any map (rules R35, R342). -/
theorem toggleCvAuto_ok (hd : DecoderOk cfg d) : DecoderOk cfg (toggleCvAuto d) := by
  obtain ⟨hcap, hkeys, hcur⟩ := hd.cv
  refine { hd with cv := ⟨hcap, hkeys, ?_⟩ }
  simp only [toggleCvAuto]
  split <;> omega

theorem handleExtFunction_ok (hc : cfg.ok) (hd : DecoderOk cfg d) (form : AddrForm) (a : BitVec 14) (command : Byte) :
    DecoderOk cfg (handleExtFunction cfg form a command d).1 := by
  unfold handleExtFunction
  split
  · exact sendRerail_ok hc (sendAddress_ok hc hd _ _) _
  · split
    · dsimp only
      exact enqueueDatagram_ok hc hd (by decide)
    · split
      · exact toggleCvAuto_ok hd
      · exact hd

theorem handleDataSpaceRead_ok (hc : cfg.ok) (hd : DecoderOk cfg d) (num off : Byte) :
    DecoderOk cfg (handleDataSpaceRead cfg num off d).1 := by
  unfold handleDataSpaceRead
  split
  · exact sendDataSpace_ok hc hd num _
  · exact hd

theorem handle_ok (hc : cfg.ok) (hd : DecoderOk cfg d) (cmd : Cmd) : DecoderOk cfg (handle cfg cmd d).1 := by
  cases cmd with
  | none | getDataStart | getDataCont | setData | setDataEnd | pomWrite | pomWriteBit | function => exact hd
  | logonEnable => exact handleLogonEnable_ok hc hd
  | select => exact handleSelect_ok hd _ _
  | logonAssign => exact handleLogonAssign_ok hc hd _ _ _
  | extFunction => exact handleExtFunction_ok hc hd _ _ _
  | pomRead =>
    simp only [handle]
    split
    · exact handlePomRead_ok hc hd _
    · exact hd
  | accessory =>
    simp only [handle]
    split
    · exact handleAccessory_ok hc hd _ _
    · exact hd
  | dataSpaceRead =>
    simp only [handle]
    split
    · exact handleDataSpaceRead_ok hc hd _ _
    · exact hd

theorem dccPacket_ok (hc : cfg.ok) (hd : DecoderOk cfg d) (cmd : Cmd) : DecoderOk cfg (dccPacket cfg cmd d).1 := by
  have hh := handle_ok hc (clearLatch_ok hd cmd) cmd
  unfold dccPacket handleRecognised
  split
  · exact hd
  · dsimp only
    split
    · exact sendAddress_ok hc hh _ _
    · exact hh

/-- The cursor wraps within the map (rules R345, R473). -/
theorem cvAutoTick_ok (hc : cfg.ok) (hd : DecoderOk cfg d) : DecoderOk cfg (cvAutoTick cfg d) := by
  unfold cvAutoTick
  split
  · split
    · next k v hk =>
      have hsend : DecoderOk cfg (sendCvAuto cfg k v d) := enqueueDatagram_ok hc hd (by decide)
      obtain ⟨hcap, hkeys, -⟩ := hsend.cv
      obtain ⟨hcur, -⟩ := List.getElem?_eq_some_iff.1 hk
      refine { hsend with cv := ⟨hcap, hkeys, ?_⟩ }
      have hwrap := Nat.mod_lt (d.cvCursor + 1) (Nat.zero_lt_of_lt hcur)
      simp only [sendCvAuto, enqueue_cv]
      omega
    · exact hd
  · exact hd

/-- A flush takes entries away and adds none (rule R260). -/
theorem flush_ok (hd : DecoderOk cfg d) : DecoderOk cfg (flush d) := by
  obtain ⟨hl1, hl2, he1, he2⟩ := hd.queues
  refine { hd with queues := ⟨?_, by simp, fun e he => he1 e (List.mem_of_mem_drop he), by simp⟩ }
  simp only [flush_ch1Q, List.length_drop]
  omega

/-! ### Configuration writes -/

/-- A write never shortens the map, so the cursor stays in range (rules R385, R473). -/
theorem cvSet_ok (hd : DecoderOk cfg d) (key : BitVec 24) (value : Byte) :
    DecoderOk cfg { d with cv := cvSet cfg key value d.cv } := by
  obtain ⟨hcap, hkeys, hcur⟩ := hd.cv
  obtain ⟨hcap', hkeys', hgrow⟩ := cvSet_wf key value hcap hkeys
  exact { hd with cv := ⟨hcap', hkeys', by simp only; omega⟩ }

theorem cvClear_ok (hd : DecoderOk cfg d) : DecoderOk cfg { d with cv := [], cvCursor := 0 } :=
  { hd with cv := by simp [CvOk] }

theorem dsClear_ok (hd : DecoderOk cfg d) : DecoderOk cfg { d with ds := [] } :=
  { hd with ds := by simp [DsOk] }

/-- Disabling the optional step takes the rotation back to its start (rules R36, R388). -/
theorem setExtInfoEnabled_ok (hd : DecoderOk cfg d) (en : Bool) :
    DecoderOk cfg { d with extInfoEnabled := en, rotIndex := if en then d.rotIndex else 0 } :=
  { hd with
    rotation := by
      cases en with
      | false => simp [RotationOk]
      | true => exact fun _ => rfl }

/-! ### The receiver -/

/-- The candidate ID is fixed once four bits are in (rule R186). -/
theorem rxId_append {acc : List Bool} (h : 4 ≤ acc.length) (bits : List Bool) : rxId (acc ++ bits) = rxId acc := by
  rw [rxId, rxId, List.take_append_of_le_length h]

/-- At the end of a step a datagram that is being read waits for more symbols, or is delivered or dropped. -/
theorem rxDeliver_reading_ok (hst : r.rxState = .reading) (h6 : r.rxAcc.length % 6 = 0) (h12 : 12 ≤ r.rxAcc.length)
    (htot : TotalOk r.rxAcc r.rxTotal.toNat) : AccumulatorOk (rxDeliver r).1 := by
  rcases rxDeliver_cases r with ⟨hwait, e⟩ | ⟨-, -, e | ⟨k, m, -, -, e⟩⟩ <;> rw [e]
  · have hlt : r.rxAcc.length < r.rxTotal.toNat := by simpa [hst] using hwait
    simpa only [AccumulatorOk, hst] using ⟨h6, h12, hlt, htot⟩
  · exact accumulatorOk_rxClear r
  · exact accumulatorOk_rxClear r

/-- A total of rule R183 fits the 6 bits of `rx_total` (rule R48). -/
theorem toNat_rxTotal (id : BitVec 4) (ctx : RxContext) :
    (BitVec.ofNat 6 (4 + expectedBits id ctx)).toNat = 4 + expectedBits id ctx := by
  have hcases := expectedBits_cases id ctx
  simp only [List.mem_cons, List.not_mem_nil, or_false] at hcases
  rw [BitVec.toNat_ofNat]
  omega

theorem totalOk_expectedBits (acc : List Bool) (ctx : RxContext) : TotalOk acc (4 + expectedBits (rxId acc) ctx) := by
  cases ctx <;> simp [TotalOk]

/-- A symbol from an idle receiver leaves 6 bits waiting, or makes 12, from which the datagram starts. -/
theorem rxExamine_idle_ok (hi : r.rxState = .idle) (h : r.rxAcc.length = 6 ∨ r.rxAcc.length = 12) :
    AccumulatorOk (rxExamine r).1 := by
  rcases rxExamine_cases r with ⟨hfew, e⟩ | ⟨-, -, -, e⟩ | ⟨-, h8, -, e⟩ <;> rw [e]
  · have h6 : r.rxAcc.length = 6 := by
      have hlt : r.rxAcc.length < 8 := by simpa [hi] using hfew
      omega
    rw [rxDeliver, if_neg (by simp [hi])]
    exact accumulatorOk_of_idle hi (.inr h6)
  · exact accumulatorOk_rxClear r
  · have h12 : r.rxAcc.length = 12 := by omega
    refine rxDeliver_reading_ok rfl (by simp [h12]) (by simp [h12]) ?_
    rw [toNat_rxTotal]
    exact totalOk_expectedBits r.rxAcc r.rxContext

theorem rxExamine_reading_ok (hst : r.rxState = .reading) (h6 : r.rxAcc.length % 6 = 0) (h12 : 12 ≤ r.rxAcc.length)
    (htot : TotalOk r.rxAcc r.rxTotal.toNat) : AccumulatorOk (rxExamine r).1 := by
  rw [rxExamine, if_neg (by simp [hst])]
  exact rxDeliver_reading_ok hst h6 h12 htot

theorem rxStep_ok (hr : AccumulatorOk r) (b : Byte) : AccumulatorOk (rxStep cfg b r).1 := by
  rcases rxStep_cases cfg b r with ⟨v, -, e⟩ | ⟨-, e⟩ <;> rw [e]
  · cases hst : r.rxState with
    | idle =>
      have hlen : r.rxAcc.length = 0 ∨ r.rxAcc.length = 6 := by simpa only [AccumulatorOk, hst] using hr
      refine rxExamine_idle_ok rfl ?_
      simp only [List.length_append, length_bitsOf]
      omega
    | reading =>
      obtain ⟨h6, h12, -, htot⟩ : r.rxAcc.length % 6 = 0 ∧ 12 ≤ r.rxAcc.length ∧
          r.rxAcc.length < r.rxTotal.toNat ∧ TotalOk r.rxAcc r.rxTotal.toNat := by
        simpa only [AccumulatorOk, hst] using hr
      refine rxExamine_reading_ok rfl (by simp; omega) (by simp; omega) ?_
      simpa only [TotalOk, rxId_append (show 4 ≤ r.rxAcc.length by omega)] using htot
  · exact accumulatorOk_rxClear r

theorem rxSteps_ok (hr : AccumulatorOk r) (bytes : List Byte) : AccumulatorOk (rxSteps cfg bytes r).1 := by
  induction bytes generalizing r with
  | nil => exact hr
  | cons b rest ih => exact ih (rxStep_ok hr b)

theorem rxRead_ok (hr : AccumulatorOk r) (bytes : List Byte) : AccumulatorOk (rxRead cfg bytes r).1 := by
  unfold rxRead
  split
  · rw [rxDataSpace_fst]
    exact accumulatorOk_rxClear r
  · exact rxSteps_ok hr bytes

/-! ### The shared operations of `exec` -/

/-- The decoder half an operation leaves is named as one value, which unification can read off an arm of `exec`. -/
theorem onDecoder_keeps_inv {d' : Decoder} (hs : Inv s) (ht : onDecoder (fun _ _ => d') s = .next t)
    (hd' : s.cfg.ok → DecoderOk s.cfg s.dec → DecoderOk s.cfg d') : Inv t := by
  obtain ⟨hc, hd, hr⟩ := inv_iff.1 hs
  rw [(onDecoder_eq_next _).1 ht]
  exact inv_iff.2 ⟨hc, hd' hc hd, hr⟩

theorem onReceiver_keeps_inv {r' : Receiver} (hs : Inv s) (ht : onReceiver (fun _ => r') s = .next t)
    (hr' : AccumulatorOk s.rcv → AccumulatorOk r') : Inv t := by
  obtain ⟨hc, hd, hr⟩ := inv_iff.1 hs
  rw [(onReceiver_eq_next _).1 ht]
  exact inv_iff.2 ⟨hc, hd, hr' hr⟩

theorem callsOnly_keeps_inv {calls : List Call} (hs : Inv s) (ht : callsOnly calls s = .next t) : Inv t := by
  rw [(callsOnly_eq_next calls).1 ht]
  exact hs

theorem runCmd_keeps_inv {cmd : Cmd} (hs : Inv s) (ht : runCmd cmd s = .next t) : Inv t := by
  obtain ⟨hc, hd, hr⟩ := inv_iff.1 hs
  rw [(runCmd_eq_next cmd).1 ht]
  exact inv_iff.2 ⟨hc, dccPacket_ok hc hd cmd, hr⟩

theorem readBytes_keeps_inv {bytes : List Byte} {calls : List Call} (hs : Inv s)
    (ht : readBytes bytes calls s = .next t) : Inv t := by
  obtain ⟨hc, hd, hr⟩ := inv_iff.1 hs
  rw [(readBytes_eq_next bytes calls).1 ht]
  exact inv_iff.2 ⟨hc, hd, rxRead_ok hr bytes⟩

theorem opReset_keeps_inv (hs : Inv s) (ht : execOpReset s = .next t) : Inv t := by
  obtain ⟨hc, -, -⟩ := inv_iff.1 hs
  cases ht
  exact inv_iff.2 ⟨hc, decoderOk_reset s.cfg, accumulatorOk_of_idle rfl (.inl rfl)⟩

theorem trigCutoutStart_keeps_inv {elapsedUs : Word32} (hs : Inv s) (ht : execTrigCutoutStart elapsedUs s = .next t) :
    Inv t := by
  obtain ⟨hc, hd, hr⟩ := inv_iff.1 hs
  cases ht
  exact inv_iff.2 ⟨hc, flush_ok hd, hr⟩

/-! ### Instructions and steps -/

/-- Every instruction keeps the invariant, by the shared operation that is its meaning. -/
theorem exec_keeps_inv {i : Instr} (hs : Inv s) (ht : exec i s = .next t) : Inv t := by
  cases i with
  | dccLogonEnable | dccSelect | dccLogonAssign | dccGetDataStart | dccGetDataCont | dccSetData | dccSetDataEnd
  | dccPomReadBroadcast | dccPomReadShort | dccPomReadLong
  | dccPomWriteBroadcast | dccPomWriteShort | dccPomWriteLong
  | dccPomWriteBitBroadcast | dccPomWriteBitShort | dccPomWriteBitLong
  | dccFunctionG1Broadcast | dccFunctionG1Short | dccFunctionG1Long
  | dccFunctionG2F5Broadcast | dccFunctionG2F5Short | dccFunctionG2F5Long
  | dccFunctionG2F9Broadcast | dccFunctionG2F9Short | dccFunctionG2F9Long
  | dccExtFunctionBroadcast | dccExtFunctionShort | dccExtFunctionLong
  | dccDataSpaceReadBroadcast | dccDataSpaceReadShort | dccDataSpaceReadLong
  | dccAccessory | trigDccPacket => exact runCmd_keeps_inv hs ht
  | dgPom | dgAdrHigh | dgAdrLow | dgExt | dgStat4 | dgDrivingInfo | dgBasicInfo | dgStat1 | dgTime | dgError | dgDyn
  | dgXpom0 | dgXpom1 | dgXpom2 | dgXpom3 | dgStat2 | dgCvAuto | dgBlock | dgDecoderState | dgRerail
  | dgDecoderUnique | dgSrq | dgDataSpace
  | symAck1 | symAck2 | symNack | symData | opRxRead => exact readBytes_keeps_inv hs ht
  | opTxBegin | opTxEnd | opRxBegin | opRxEnd => exact callsOnly_keeps_inv hs ht
  | opReset => exact opReset_keeps_inv hs ht
  | trigCutoutStart => exact trigCutoutStart_keeps_inv hs ht
  | opCvAutoTick => exact onDecoder_keeps_inv hs ht cvAutoTick_ok
  | opSendPom | opSendDynamic | opSendStatus1 | opSendStatus2 | opSendStatus4 | opSendError | opSendCvAuto | opSendExt
  | opSendDrivingInfo | opSendBasicInfo | opSendBlock =>
    exact onDecoder_keeps_inv hs ht fun hc hd => enqueueDatagram_ok hc hd (by decide)
  | opSendDecoderUnique | opSendDecoderState =>
    exact onDecoder_keeps_inv hs ht fun hc hd => enqueueSplitDatagram_ok hc hd
  | opSendAddress => exact onDecoder_keeps_inv hs ht fun hc hd => sendAddress_ok hc hd _ _
  | opSendXpom => exact onDecoder_keeps_inv hs ht fun hc hd => sendXpom_ok hc hd _ _ _ _ _
  | opSendTime => exact onDecoder_keeps_inv hs ht fun hc hd => sendTime_ok hc hd _ _
  | opSendRerail => exact onDecoder_keeps_inv hs ht fun hc hd => sendRerail_ok hc hd _
  | opSendServiceRequest => exact onDecoder_keeps_inv hs ht fun hc hd => sendServiceRequest_ok hc hd _ _
  | opSendDataSpace => exact onDecoder_keeps_inv hs ht fun hc hd => sendDataSpace_ok hc hd _ _
  | opSecondTick | opSetAddress | opSetIdentity | opSetClass | opSetExtInfo | opSetExtPosition
  | opSetDecoderStateFields | opLogonReset => exact onDecoder_keeps_inv hs ht fun _ hd => { hd with }
  | opSetExtInfoEnabled => exact onDecoder_keeps_inv hs ht fun _ hd => setExtInfoEnabled_ok hd _
  | opCvSet => exact onDecoder_keeps_inv hs ht fun _ hd => cvSet_ok hd _ _
  | opCvClear => exact onDecoder_keeps_inv hs ht fun _ hd => cvClear_ok hd
  | opDsSet => exact onDecoder_keeps_inv hs ht fun _ hd => { hd with ds := dsSet_dsOk _ _ hd.ds }
  | opDsClear => exact onDecoder_keeps_inv hs ht fun _ hd => dsClear_ok hd
  | opRxSetContext | opRxExpectDataSpace | opRxCacheTimeout => exact onReceiver_keeps_inv hs ht id

/-- A step from a state with the invariant: idle, an ignored trigger, or an instruction. -/
theorem step_keeps_inv (hs : Inv s) (ht : step s = .next t) : Inv t := by
  unfold step at ht
  split at ht
  · cases ht
    exact hs
  · next waiting _ =>
    have hw : Inv { s with port := waiting } := hs
    split at ht
    · exact exec_keeps_inv hw ht
    · rw [ignored_eq_next.1 ht]
      exact hw

/-! ### The default parameters -/

/-- The entries are compared as numbers, which the kernel does fast. -/
theorem default_enc4of8_nodup : Config.default.enc4of8.Nodup :=
  List.Nodup.of_map BitVec.toNat (by decide)

/-- The test is run as one Boolean over the table, which evaluates faster than the bounded quantifier. -/
theorem default_enc4of8_symbols :
    ∀ b ∈ Config.default.enc4of8, weight b = 4 ∧ b ≠ ack1 ∧ b ≠ ack2 ∧ b ≠ nack := by
  have h : (Config.default.enc4of8.all fun b => weight b == 4 && b != ack1 && b != ack2 && b != nack) = true := by
    decide
  simpa [and_assoc] using h

/-- The default parameters are legal (rules R9, R101). -/
theorem config_default_ok : Config.default.ok :=
  ⟨⟨rfl, default_enc4of8_nodup, default_enc4of8_symbols⟩, by decide⟩

end Lemmas

/-! ### The obligations -/

/-- Settles O59: the shared operation behind each instruction keeps the part of the invariant of the half it writes. -/
theorem stepKeepsTheInvariant : Obligations.StepKeepsTheInvariant :=
  fun _ _ => step_keeps_inv

/-- Settles O60: the stores are empty, the registers zero, and the default parameters are legal. -/
theorem resetHasTheInvariant : Obligations.ResetHasTheInvariant :=
  inv_iff.2 ⟨config_default_ok, decoderOk_reset _, accumulatorOk_of_idle rfl (.inl rfl)⟩

end Sys2Proof.Invariant

/-! PROOFS. What an operation may touch (10_state.md): every instruction but `reset` works on one half of
the state; from that follow the two halves (rule R20), the frame of the configuration (rules R44, R45, R452)
and the broadcast latch (rules R32, R322). -/

namespace Sys2Proof.Frames

open Sys2Proof.Machine Sys2Proof.Claims

section Lemmas

variable {cfg : Config} {d d' : Decoder} {r : Receiver} {s t : State} {i : Instr}

/-! ### Address and latch -/

/-- The decoder's address and its broadcast latch: the registers that no send writes and, of the handlers, only that of
LOGON_ASSIGN (rules R226, R323, R334). -/
def addressing (d : Decoder) : BitVec 14 × Bool × Bool := (d.address, d.addrLong, d.ch1BroadcastEnabled)

theorem addressing_eq_iff : addressing d' = addressing d ↔
    d'.address = d.address ∧ d'.addrLong = d.addrLong ∧ d'.ch1BroadcastEnabled = d.ch1BroadcastEnabled := by
  simp [addressing]

@[simp] theorem addressing_enqueue (ch : Channel) (e : Entry) : addressing (enqueue cfg ch e d) = addressing d := by
  simp [addressing]

@[simp] theorem addressing_enqueueSplit (e : Entry) : addressing (enqueueSplit cfg e d) = addressing d := by
  simp [addressing]

@[simp] theorem addressing_sendAddress (a : BitVec 14) (long : Bool) :
    addressing (sendAddress cfg a long d) = addressing d :=
  addressing_enqueue .one (rotationBytes cfg a long d)

@[simp] theorem addressing_sendXpom (seq d0 d1 d2 d3 : Byte) :
    addressing (sendXpom cfg seq d0 d1 d2 d3 d) = addressing d := by
  unfold sendXpom
  split <;> simp

@[simp] theorem addressing_sendTime (value : Byte) (unit : Bool) :
    addressing (sendTime cfg value unit d) = addressing d := by
  unfold sendTime
  split <;> simp

@[simp] theorem addressing_sendRerail (seconds : BitVec 16) :
    addressing (sendRerail cfg seconds d) = addressing d := by
  unfold sendRerail
  split <;> simp

@[simp] theorem addressing_sendServiceRequest (a : BitVec 16) (ext : Bool) :
    addressing (sendServiceRequest cfg a ext d) = addressing d := by
  unfold sendServiceRequest
  split <;> simp

@[simp] theorem addressing_sendDataSpace (num : Byte) (data : List Byte) :
    addressing (sendDataSpace cfg num data d) = addressing d := by
  unfold sendDataSpace
  split <;> simp

@[simp] theorem addressing_cvAutoTick : addressing (cvAutoTick cfg d) = addressing d := by
  unfold cvAutoTick
  split
  · split
    · exact addressing_enqueue .two _
    · rfl
  · rfl

@[simp] theorem addressing_singulate : addressing (singulate cfg d).1 = addressing d := by
  unfold singulate
  split
  · exact addressing_enqueueSplit _
  · rfl

theorem addressing_handleLogonEnable : addressing (handleLogonEnable cfg d).1 = addressing d := by
  unfold handleLogonEnable
  cases d.logonState with
  | idle | waitingForLogon | inSingulation => exact addressing_singulate
  | announced | registered => rfl

theorem addressing_handleSelect (mfg : BitVec 12) (uid : Word32) :
    addressing (handleSelect mfg uid d).1 = addressing d := by
  unfold handleSelect
  split <;> rfl

theorem addressing_handlePomRead (cv : BitVec 11) : addressing (handlePomRead cfg cv d).1 = addressing d := by
  unfold handlePomRead
  split
  · exact addressing_enqueue .two _
  · rfl

theorem addressing_handleAccessory (activate : Bool) (output : BitVec 3) :
    addressing (handleAccessory cfg activate output d).1 = addressing d := by
  unfold handleAccessory
  dsimp only
  split <;> exact addressing_enqueue .two _

theorem addressing_handleExtFunction (form : AddrForm) (a : BitVec 14) (command : Byte) :
    addressing (handleExtFunction cfg form a command d).1 = addressing d := by
  unfold handleExtFunction
  split
  · simp [handleRerail]
  · split
    · exact addressing_enqueue .two _
    · split <;> rfl

theorem addressing_handleDataSpaceRead (num off : Byte) :
    addressing (handleDataSpaceRead cfg num off d).1 = addressing d := by
  unfold handleDataSpaceRead
  split <;> simp

/-- A handler leaves address and latch alone; that of LOGON_ASSIGN leaves the latch alone (rules R323, R334). -/
theorem handle_addressing (cfg : Config) (cmd : Cmd) (d : Decoder) :
    addressing (handle cfg cmd d).1 = addressing d ∨
      (∃ m u k a, cmd = .logonAssign m u k a) ∧
        (handle cfg cmd d).1.ch1BroadcastEnabled = d.ch1BroadcastEnabled := by
  cases cmd with
  | none | getDataStart | getDataCont | setData | setDataEnd | pomWrite | pomWriteBit | function => exact .inl rfl
  | logonEnable => exact .inl addressing_handleLogonEnable
  | select => exact .inl (addressing_handleSelect _ _)
  | logonAssign m u k a =>
    refine .inr ⟨⟨m, u, k, a, rfl⟩, ?_⟩
    simp only [handle, handleLogonAssign]
    split
    · simp [sendDecoderState]
    · rfl
  | pomRead =>
    simp only [handle]
    split
    · exact .inl (addressing_handlePomRead _)
    · exact .inl rfl
  | accessory =>
    simp only [handle]
    split
    · exact .inl (addressing_handleAccessory _ _)
    · exact .inl rfl
  | extFunction => exact .inl (addressing_handleExtFunction _ _ _)
  | dataSpaceRead =>
    simp only [handle]
    split
    · exact .inl (addressing_handleDataSpaceRead _ _)
    · exact .inl rfl

/-- The default broadcast writes neither address nor latch: a packet does what its handler does (rule R320). -/
theorem addressing_handleRecognised (cfg : Config) (cmd : Cmd) (d : Decoder) :
    addressing (handleRecognised cfg cmd d).1 = addressing (handle cfg cmd (clearLatch cmd d)).1 := by
  unfold handleRecognised
  dsimp only
  split
  · exact addressing_sendAddress _ _
  · rfl

/-- A packet clears the latch if it is directly addressed, and does nothing else to it (rules R32, R322). -/
theorem dccPacket_latch (cfg : Config) (cmd : Cmd) (d : Decoder) :
    (dccPacket cfg cmd d).1.ch1BroadcastEnabled = (d.ch1BroadcastEnabled && !own cmd d) := by
  unfold dccPacket
  split
  · next hnone => simp [hnone, own]
  · obtain ⟨-, -, hrec⟩ := addressing_eq_iff.1 (addressing_handleRecognised cfg cmd d)
    rw [hrec, ← clearLatch_ch1BroadcastEnabled]
    rcases handle_addressing cfg cmd (clearLatch cmd d) with h | ⟨-, h⟩
    · obtain ⟨-, -, hlatch⟩ := addressing_eq_iff.1 h
      exact hlatch
    · exact h

/-- Of the packets only LOGON_ASSIGN writes the address (rule R334). -/
theorem dccPacket_address (cfg : Config) (cmd : Cmd) (d : Decoder) :
    ((dccPacket cfg cmd d).1.address = d.address ∧ (dccPacket cfg cmd d).1.addrLong = d.addrLong) ∨
      ∃ m u k a, cmd = .logonAssign m u k a := by
  unfold dccPacket
  split
  · exact .inl ⟨rfl, rfl⟩
  · rcases handle_addressing cfg cmd (clearLatch cmd d) with h | ⟨h, -⟩
    · obtain ⟨ha, hl, -⟩ := addressing_eq_iff.1 ((addressing_handleRecognised cfg cmd d).trans h)
      exact .inl ⟨ha.trans (clearLatch_address cmd d), hl.trans (clearLatch_addrLong cmd d)⟩
    · exact .inr h

/-! ### Directly addressed -/

/-- A 14-bit address is a zero-extended 7-bit one where it is below 128 and its low bits are that one. -/
theorem eq_setWidth_iff (a : BitVec 14) (x : BitVec 7) :
    a = x.setWidth 14 ↔ a.toNat < 128 ∧ x = a.extractLsb' 0 7 := by
  have hx := x.isLt
  rw [← BitVec.toNat_inj, ← BitVec.toNat_inj]
  simp only [BitVec.toNat_setWidth, BitVec.extractLsb'_toNat, Nat.shiftRight_zero]
  omega

/-- The model's test for an address form agrees with the statements' (rule R322). -/
theorem ownForm_eq_ownMobile (form : AddrForm) (a : BitVec 14) (d : Decoder) :
    ownForm form a d = ownMobile form a d := by
  cases form with
  | broadcast => rfl
  | short =>
    rw [Bool.eq_iff_iff]
    simp only [ownForm, ownMobile, ownShort, Bool.and_eq_true, beq_iff_eq, Bool.not_eq_true', decide_eq_true_eq,
      eq_setWidth_iff]
    tauto
  | long =>
    rw [Bool.eq_iff_iff]
    simp only [ownForm, ownMobile, ownLong, Bool.and_eq_true, beq_iff_eq, decide_eq_true_eq, and_assoc,
      eq_comm (a := a)]

/-- The model's test for a directly addressed command agrees with the statements' (rule R322). -/
theorem own_eq_addressed (cmd : Cmd) (d : Decoder) : own cmd d = addressed cmd d := by
  cases cmd with
  | none | logonEnable | select | logonAssign | getDataStart | getDataCont | setData | setDataEnd => rfl
  | pomRead | pomWrite | pomWriteBit | function | extFunction | dataSpaceRead => exact ownForm_eq_ownMobile _ _ d
  | accessory a =>
    rw [Bool.eq_iff_iff]
    simp only [own, addressed, ownAccessory, Bool.and_eq_true, beq_iff_eq, decide_eq_true_eq, eq_comm (a := a)]

/-! ### The receive context -/

theorem rxDeliver_rxContext (r : Receiver) : (rxDeliver r).1.rxContext = r.rxContext := by
  rcases rxDeliver_cases r with ⟨-, e⟩ | ⟨-, -, e | ⟨_, _, -, -, e⟩⟩ <;> rw [e] <;> rfl

theorem rxExamine_rxContext (r : Receiver) : (rxExamine r).1.rxContext = r.rxContext := by
  rcases rxExamine_cases r with ⟨-, e⟩ | ⟨-, -, -, e⟩ | ⟨-, -, -, e⟩ <;> rw [e]
  · exact rxDeliver_rxContext r
  · rfl
  · exact rxDeliver_rxContext _

theorem rxStep_rxContext (cfg : Config) (b : Byte) (r : Receiver) : (rxStep cfg b r).1.rxContext = r.rxContext := by
  rcases rxStep_cases cfg b r with ⟨v, -, e⟩ | ⟨-, e⟩ <;> rw [e]
  · exact rxExamine_rxContext _
  · rfl

theorem rxSteps_rxContext (cfg : Config) (bytes : List Byte) (r : Receiver) :
    (rxSteps cfg bytes r).1.rxContext = r.rxContext := by
  induction bytes generalizing r with
  | nil => rfl
  | cons b rest ih => exact (ih _).trans (rxStep_rxContext cfg b r)

/-- No read changes the receive context (rule R28). -/
theorem rxRead_rxContext (cfg : Config) (bytes : List Byte) (r : Receiver) :
    (rxRead cfg bytes r).1.rxContext = r.rxContext := by
  unfold rxRead
  split
  · rw [rxDataSpace_fst]
    rfl
  · exact rxSteps_rxContext cfg bytes r

/-! ### Sends -/

theorem sendXpom_extends (seq d0 d1 d2 d3 : Byte) : Extends d (sendXpom cfg seq d0 d1 d2 d3 d) := by
  unfold sendXpom
  split
  · exact .refl d
  · exact enqueue_extends cfg .two _ d

theorem sendTime_extends (value : Byte) (unit : Bool) : Extends d (sendTime cfg value unit d) := by
  unfold sendTime
  split
  · exact .refl d
  · exact enqueue_extends cfg .two _ d

theorem sendServiceRequest_extends (a : BitVec 16) (ext : Bool) : Extends d (sendServiceRequest cfg a ext d) := by
  unfold sendServiceRequest
  split
  · exact .refl d
  · exact enqueue_extends cfg .one _ d

theorem sendDataSpace_extends (num : Byte) (data : List Byte) : Extends d (sendDataSpace cfg num data d) := by
  unfold sendDataSpace
  split
  · exact .refl d
  · exact enqueueSplit_extends cfg _ d

theorem cvAutoTick_extends : Extends d (cvAutoTick cfg d) := by
  unfold cvAutoTick
  split
  · split
    · next k v _ => exact { enqueue_extends cfg .two (wireCvAuto cfg k v) d with }
    · exact .refl d
  · exact .refl d

/-! ### Frames of the decoder half -/

/-- Each store and each register of configuration of the decoder half changes from `d` to `d'` only if `i` is the host
operation that configures it; the address, which a packet can also write, is left out. -/
structure ConfigFrame (i : Instr) (d d' : Decoder) : Prop where
  cv : d'.cv ≠ d.cv → i = .opCvClear ∨ ∃ key value, i = .opCvSet key value
  ds : d'.ds ≠ d.ds → i = .opDsClear ∨ ∃ num bytes, i = .opDsSet num bytes
  identity : d'.mfgId ≠ d.mfgId ∨ d'.productId ≠ d.productId → ∃ m p, i = .opSetIdentity m p
  cls : d'.decoderClass ≠ d.decoderClass ∨ d'.statusKind ≠ d.statusKind → ∃ c k, i = .opSetClass c k
  extInfoEnabled : d'.extInfoEnabled ≠ d.extInfoEnabled → ∃ en, i = .opSetExtInfoEnabled en
  extInfo : d'.extInfo ≠ d.extInfo → ∃ info, i = .opSetExtInfo info
  extPosition : d'.extType ≠ d.extType ∨ d'.extPosition ≠ d.extPosition → ∃ k p, i = .opSetExtPosition k p
  stateFields : d'.dsFlags ≠ d.dsFlags ∨ d'.dsCount ≠ d.dsCount ∨ d'.dsCaps ≠ d.dsCaps →
    ∃ f n c, i = .opSetDecoderStateFields f n c
  uptime : d'.uptimeS ≠ d.uptimeS → i = .opSecondTick

/-- What a host operation may do to the decoder half: `ConfigFrame`, the address only by `set_address`, the latch
never. -/
structure HostFrame (i : Instr) (d d' : Decoder) : Prop extends ConfigFrame i d d' where
  address : d'.address ≠ d.address ∨ d'.addrLong ≠ d.addrLong → ∃ a long, i = .opSetAddress a long
  latch : d'.ch1BroadcastEnabled = d.ch1BroadcastEnabled

theorem ConfigFrame.of_extends (h : Extends d d') : ConfigFrame i d d' where
  cv k := absurd h.cv k
  ds k := absurd h.ds k
  identity k := by simp [h.mfgId, h.productId] at k
  cls k := by simp [h.decoderClass, h.statusKind] at k
  extInfoEnabled k := absurd h.extInfoEnabled k
  extInfo k := absurd h.extInfo k
  extPosition k := by simp [h.extType, h.extPosition] at k
  stateFields k := by simp [h.dsFlags, h.dsCount, h.dsCaps] at k
  uptime k := absurd h.uptimeS k

theorem HostFrame.of_extends (h : Extends d d') (ha : addressing d' = addressing d) : HostFrame i d d' := by
  obtain ⟨haddr, hlong, hlatch⟩ := addressing_eq_iff.1 ha
  exact { ConfigFrame.of_extends h with address := by simp [haddr, hlong], latch := hlatch }

theorem HostFrame.refl (i : Instr) (d : Decoder) : HostFrame i d d :=
  .of_extends (.refl d) rfl

theorem flush_hostFrame (i : Instr) (d : Decoder) : HostFrame i d (flush d) :=
  { HostFrame.refl i d with }

/-! ### What an instruction is -/

/-- What an instruction other than `reset` does: a packet runs a command, which takes nothing from the state but the
parameters; any other operation puts out no command and replaces one half of the state, by a half that the parameters
and the old one fix. The second state of each line has the parameters, or the parameters and that half, of `s` and is
else arbitrary. -/
inductive Meaning (i : Instr) : Prop
  | reset (h : i = .opReset)
  | packet (h : ∀ s s' : State, ∃ cmd,
      exec i s = runCmd cmd s ∧ exec i { s' with cfg := s.cfg } = runCmd cmd { s' with cfg := s.cfg })
  | decoder (h : ∀ s s' : State, ∃ d o,
      exec i s = .next { s with dec := d, out := o } ∧
      exec i { s' with cfg := s.cfg, dec := s.dec } = .next { s' with cfg := s.cfg, dec := d, out := o } ∧
      o.cmdOut = none ∧ HostFrame i s.dec d)
  | receiver (h : ∀ s s' : State, ∃ r o,
      exec i s = .next { s with rcv := r, out := o } ∧
      exec i { s' with cfg := s.cfg, rcv := s.rcv } = .next { s' with cfg := s.cfg, rcv := r, out := o } ∧
      o.cmdOut = none ∧ (r.rxContext ≠ s.rcv.rxContext → ∃ ctx, i = .opRxSetContext ctx))

/-- Every instruction has one of these meanings, by the shared operation its arm of `exec` is (rules R20, R420). -/
theorem meaning (i : Instr) : Meaning i := by
  cases i with
  | opReset => exact .reset rfl
  | dccLogonEnable | dccSelect | dccLogonAssign | dccGetDataStart | dccGetDataCont | dccSetData | dccSetDataEnd
  | dccPomReadBroadcast | dccPomReadShort | dccPomReadLong
  | dccPomWriteBroadcast | dccPomWriteShort | dccPomWriteLong
  | dccPomWriteBitBroadcast | dccPomWriteBitShort | dccPomWriteBitLong
  | dccFunctionG1Broadcast | dccFunctionG1Short | dccFunctionG1Long
  | dccFunctionG2F5Broadcast | dccFunctionG2F5Short | dccFunctionG2F5Long
  | dccFunctionG2F9Broadcast | dccFunctionG2F9Short | dccFunctionG2F9Long
  | dccExtFunctionBroadcast | dccExtFunctionShort | dccExtFunctionLong
  | dccDataSpaceReadBroadcast | dccDataSpaceReadShort | dccDataSpaceReadLong
  | dccAccessory | trigDccPacket => exact .packet fun _ _ => ⟨_, rfl, rfl⟩
  | dgPom | dgAdrHigh | dgAdrLow | dgExt | dgStat4 | dgDrivingInfo | dgBasicInfo | dgStat1 | dgTime | dgError | dgDyn
  | dgXpom0 | dgXpom1 | dgXpom2 | dgXpom3 | dgStat2 | dgCvAuto | dgBlock | dgDecoderState | dgRerail
  | dgDecoderUnique | dgSrq | dgDataSpace
  | symAck1 | symAck2 | symNack | symData | opRxRead =>
    exact .receiver fun _ _ => ⟨_, _, rfl, rfl, rfl, fun h => absurd (rxRead_rxContext _ _ _) h⟩
  | opRxSetContext => exact .receiver fun _ _ => ⟨_, _, rfl, rfl, rfl, fun _ => ⟨_, rfl⟩⟩
  | opRxExpectDataSpace | opRxCacheTimeout => exact .receiver fun _ _ => ⟨_, _, rfl, rfl, rfl, fun h => absurd rfl h⟩
  | opTxBegin | opTxEnd | opRxBegin | opRxEnd => exact .decoder fun s _ => ⟨_, _, rfl, rfl, rfl, .refl _ s.dec⟩
  | trigCutoutStart => exact .decoder fun s _ => ⟨_, _, rfl, rfl, rfl, flush_hostFrame _ s.dec⟩
  | opCvAutoTick =>
    exact .decoder fun _ _ => ⟨_, _, rfl, rfl, rfl, .of_extends cvAutoTick_extends addressing_cvAutoTick⟩
  | opSendPom | opSendDynamic | opSendStatus1 | opSendStatus2 | opSendStatus4 | opSendError | opSendCvAuto | opSendExt
  | opSendDrivingInfo | opSendBasicInfo | opSendBlock =>
    exact .decoder fun _ _ =>
      ⟨_, _, rfl, rfl, rfl, .of_extends (enqueue_extends _ _ _ _) (addressing_enqueue _ _)⟩
  | opSendDecoderUnique | opSendDecoderState =>
    exact .decoder fun _ _ =>
      ⟨_, _, rfl, rfl, rfl, .of_extends (enqueueSplit_extends _ _ _) (addressing_enqueueSplit _)⟩
  | opSendAddress =>
    exact .decoder fun _ _ =>
      ⟨_, _, rfl, rfl, rfl, .of_extends (sendAddress_extends _ _ _ _) (addressing_sendAddress _ _)⟩
  | opSendXpom =>
    exact .decoder fun _ _ =>
      ⟨_, _, rfl, rfl, rfl, .of_extends (sendXpom_extends _ _ _ _ _) (addressing_sendXpom _ _ _ _ _)⟩
  | opSendTime =>
    exact .decoder fun _ _ => ⟨_, _, rfl, rfl, rfl, .of_extends (sendTime_extends _ _) (addressing_sendTime _ _)⟩
  | opSendRerail =>
    exact .decoder fun _ _ => ⟨_, _, rfl, rfl, rfl, .of_extends (sendRerail_extends _ _ _) (addressing_sendRerail _)⟩
  | opSendServiceRequest =>
    exact .decoder fun _ _ =>
      ⟨_, _, rfl, rfl, rfl, .of_extends (sendServiceRequest_extends _ _) (addressing_sendServiceRequest _ _)⟩
  | opSendDataSpace =>
    exact .decoder fun _ _ =>
      ⟨_, _, rfl, rfl, rfl, .of_extends (sendDataSpace_extends _ _) (addressing_sendDataSpace _ _)⟩
  | opLogonReset => exact .decoder fun s _ => ⟨_, _, rfl, rfl, rfl, { HostFrame.refl _ s.dec with }⟩
  | opSecondTick =>
    exact .decoder fun s _ => ⟨_, _, rfl, rfl, rfl, { HostFrame.refl _ s.dec with uptime := fun _ => rfl }⟩
  | opSetAddress =>
    exact .decoder fun s _ => ⟨_, _, rfl, rfl, rfl, { HostFrame.refl _ s.dec with address := fun _ => ⟨_, _, rfl⟩ }⟩
  | opSetIdentity =>
    exact .decoder fun s _ => ⟨_, _, rfl, rfl, rfl, { HostFrame.refl _ s.dec with identity := fun _ => ⟨_, _, rfl⟩ }⟩
  | opSetClass =>
    exact .decoder fun s _ => ⟨_, _, rfl, rfl, rfl, { HostFrame.refl _ s.dec with cls := fun _ => ⟨_, _, rfl⟩ }⟩
  | opSetExtInfoEnabled =>
    exact .decoder fun s _ =>
      ⟨_, _, rfl, rfl, rfl, { HostFrame.refl _ s.dec with extInfoEnabled := fun _ => ⟨_, rfl⟩ }⟩
  | opSetExtInfo =>
    exact .decoder fun s _ => ⟨_, _, rfl, rfl, rfl, { HostFrame.refl _ s.dec with extInfo := fun _ => ⟨_, rfl⟩ }⟩
  | opSetExtPosition =>
    exact .decoder fun s _ =>
      ⟨_, _, rfl, rfl, rfl, { HostFrame.refl _ s.dec with extPosition := fun _ => ⟨_, _, rfl⟩ }⟩
  | opSetDecoderStateFields =>
    exact .decoder fun s _ =>
      ⟨_, _, rfl, rfl, rfl, { HostFrame.refl _ s.dec with stateFields := fun _ => ⟨_, _, _, rfl⟩ }⟩
  | opCvSet =>
    exact .decoder fun s _ => ⟨_, _, rfl, rfl, rfl, { HostFrame.refl _ s.dec with cv := fun _ => .inr ⟨_, _, rfl⟩ }⟩
  | opCvClear =>
    exact .decoder fun s _ => ⟨_, _, rfl, rfl, rfl, { HostFrame.refl _ s.dec with cv := fun _ => .inl rfl }⟩
  | opDsSet =>
    exact .decoder fun s _ => ⟨_, _, rfl, rfl, rfl, { HostFrame.refl _ s.dec with ds := fun _ => .inr ⟨_, _, rfl⟩ }⟩
  | opDsClear =>
    exact .decoder fun s _ => ⟨_, _, rfl, rfl, rfl, { HostFrame.refl _ s.dec with ds := fun _ => .inl rfl }⟩

/-! ### The two halves -/

/-- `i` writes the decoder half only, and what it writes and puts out is fixed by that half and the parameters. -/
def OnDecoderHalf (i : Instr) : Prop :=
  ∀ s s' : State, s.cfg = s'.cfg → s.dec = s'.dec →
    ∃ d o, exec i s = .next { s with dec := d, out := o } ∧ exec i s' = .next { s' with dec := d, out := o }

/-- `i` writes the receiver half only, and what it writes and puts out is fixed by that half and the parameters. -/
def OnReceiverHalf (i : Instr) : Prop :=
  ∀ s s' : State, s.cfg = s'.cfg → s.rcv = s'.rcv →
    ∃ r o, exec i s = .next { s with rcv := r, out := o } ∧ exec i s' = .next { s' with rcv := r, out := o }

theorem OnDecoderHalf.rcv_eq (h : OnDecoderHalf i) (ht : exec i s = .next t) : t.rcv = s.rcv := by
  obtain ⟨d, o, e, -⟩ := h s s rfl rfl
  cases e.symm.trans ht
  rfl

theorem OnReceiverHalf.dec_eq (h : OnReceiverHalf i) (ht : exec i s = .next t) : t.dec = s.dec := by
  obtain ⟨r, o, e, -⟩ := h s s rfl rfl
  cases e.symm.trans ht
  rfl

theorem OnDecoderHalf.same_effect {s' t' : State} (h : OnDecoderHalf i) (ht : exec i s = .next t)
    (ht' : exec i s' = .next t') (hc : s.cfg = s'.cfg) (hd : s.dec = s'.dec) : t.dec = t'.dec ∧ t.out = t'.out := by
  obtain ⟨d, o, e, e'⟩ := h s s' hc hd
  cases e.symm.trans ht
  cases e'.symm.trans ht'
  exact ⟨rfl, rfl⟩

theorem OnReceiverHalf.same_effect {s' t' : State} (h : OnReceiverHalf i) (ht : exec i s = .next t)
    (ht' : exec i s' = .next t') (hc : s.cfg = s'.cfg) (hr : s.rcv = s'.rcv) : t.rcv = t'.rcv ∧ t.out = t'.out := by
  obtain ⟨r, o, e, e'⟩ := h s s' hc hr
  cases e.symm.trans ht
  cases e'.symm.trans ht'
  exact ⟨rfl, rfl⟩

/-- Every instruction but `reset` works on one half (rule R20). -/
theorem on_one_half (hi : i ≠ .opReset) : OnDecoderHalf i ∨ OnReceiverHalf i := by
  cases meaning i with
  | reset h => exact absurd h hi
  | packet h =>
    refine .inl fun s s' hc hd => ?_
    obtain ⟨cmd, e, e'⟩ := h s s'
    rw [hc] at e'
    exact ⟨_, _, e, by rw [hc, hd]; exact e'⟩
  | decoder h =>
    refine .inl fun s s' hc hd => ?_
    obtain ⟨d, o, e, e', -⟩ := h s s'
    rw [hc, hd] at e'
    exact ⟨d, o, e, e'⟩
  | receiver h =>
    refine .inr fun s s' hc hr => ?_
    obtain ⟨r, o, e, e', -⟩ := h s s'
    rw [hc, hr] at e'
    exact ⟨r, o, e, e'⟩

/-! ### Stores, configuration and latch over one instruction -/

/-- The parameters and the port stay, and each store and each register of configuration changes only by an operation
that configures it (rules R44, R45, R452). -/
structure ChangesOnlyItsOwn (i : Instr) (s t : State) : Prop extends ConfigFrame i s.dec t.dec where
  cfg : t.cfg = s.cfg
  port : t.port = s.port
  address : t.dec.address ≠ s.dec.address ∨ t.dec.addrLong ≠ s.dec.addrLong →
    (∃ a long, i = .opSetAddress a long) ∨ ∃ m u k a, t.out.cmdOut = some (.logonAssign m u k a)
  context : t.rcv.rxContext ≠ s.rcv.rxContext → ∃ ctx, i = .opRxSetContext ctx

/-- An operation on the decoder half within `HostFrame`. -/
theorem HostFrame.changesOnlyItsOwn (h : HostFrame i s.dec d) (o : Out) :
    ChangesOnlyItsOwn i s { s with dec := d, out := o } :=
  { h with cfg := rfl, port := rfl, address := fun k => .inl (h.address k), context := fun k => absurd rfl k }

/-- An operation on the receiver half. -/
theorem changesOnlyItsOwn_of_rcv (o : Out) (h : r.rxContext ≠ s.rcv.rxContext → ∃ ctx, i = .opRxSetContext ctx) :
    ChangesOnlyItsOwn i s { s with rcv := r, out := o } :=
  { (HostFrame.refl i s.dec).changesOnlyItsOwn o with context := h }

/-- A packet writes no configuration but, by LOGON_ASSIGN, the address (rules R323, R334). -/
theorem runCmd_changesOnlyItsOwn {cmd : Cmd} (h : runCmd cmd s = .next t) : ChangesOnlyItsOwn i s t := by
  rw [(runCmd_eq_next cmd).1 h]
  refine { ConfigFrame.of_extends (dccPacket_extends s.cfg cmd s.dec) with
    cfg := rfl, port := rfl, address := fun k => ?_, context := fun k => absurd rfl k }
  rcases dccPacket_address s.cfg cmd s.dec with ⟨ha, hl⟩ | ⟨m, u, kind, a, rfl⟩
  · simp [ha, hl] at k
  · exact .inr ⟨m, u, kind, a, rfl⟩

theorem exec_changesOnlyItsOwn (hi : i ≠ .opReset) (ht : exec i s = .next t) : ChangesOnlyItsOwn i s t := by
  cases meaning i with
  | reset h => exact absurd h hi
  | packet h =>
    obtain ⟨cmd, e, -⟩ := h s s
    exact runCmd_changesOnlyItsOwn (e.symm.trans ht)
  | decoder h =>
    obtain ⟨d, o, e, -, -, frame⟩ := h s s
    cases e.symm.trans ht
    exact frame.changesOnlyItsOwn o
  | receiver h =>
    obtain ⟨r, o, e, -, -, frame⟩ := h s s
    cases e.symm.trans ht
    exact changesOnlyItsOwn_of_rcv o frame

/-- The latch after an operation whose output `cmd_out` is `cmd` (rules R32, R322). -/
def latchAfter (cmd : Option Cmd) (d : Decoder) : Bool :=
  d.ch1BroadcastEnabled && !(match cmd with | some cmd => addressed cmd d | none => false)

theorem latchAfter_none (d : Decoder) : latchAfter none d = d.ch1BroadcastEnabled := by
  simp [latchAfter]

theorem exec_latch (hi : i ≠ .opReset) (ht : exec i s = .next t) :
    t.dec.ch1BroadcastEnabled = latchAfter t.out.cmdOut s.dec := by
  cases meaning i with
  | reset h => exact absurd h hi
  | packet h =>
    obtain ⟨cmd, e, -⟩ := h s s
    rw [(runCmd_eq_next cmd).1 (e.symm.trans ht), dccPacket_latch, own_eq_addressed]
    rfl
  | decoder h =>
    obtain ⟨d, o, e, -, ho, frame⟩ := h s s
    cases e.symm.trans ht
    rw [ho, latchAfter_none]
    exact frame.latch
  | receiver h =>
    obtain ⟨r, o, e, -, ho, -⟩ := h s s
    cases e.symm.trans ht
    rw [ho, latchAfter_none]

end Lemmas

/-! ### The obligations -/

/-- Settles O31: the reset halves are the table of rule R52. -/
theorem resetSetsEveryRegister : Obligations.ResetSetsEveryRegister := by
  refine fun s => ⟨Decoder.reset, Receiver.reset, rfl, ?_, ?_, ?_⟩ <;> decide

/-- Settles O58: every instruction but `reset` is a shared operation, and each of those works on one half. -/
theorem halvesAreDisjoint : Obligations.HalvesAreDisjoint := by
  intro i hi
  rcases on_one_half hi with h | h
  · exact .inl fun _ _ _ _ ht ht' => ⟨h.rcv_eq ht, h.same_effect ht ht'⟩
  · exact .inr fun _ _ _ _ ht ht' => ⟨h.dec_eq ht, h.same_effect ht ht'⟩

/-- Settles O57: `reset` keeps parameters and port; every other instruction has the frame of its shared operation. -/
theorem configurationChangesOnlyByTheHost : Obligations.ConfigurationChangesOnlyByTheHost := by
  intro i s t h
  by_cases hi : i = .opReset
  · subst hi
    cases h
    exact ⟨rfl, rfl, fun hne => absurd rfl hne⟩
  · have k := exec_changesOnlyItsOwn hi h
    exact ⟨k.cfg, k.port, fun _ => ⟨k.cv, k.ds, k.identity, k.cls, k.extInfoEnabled, k.extInfo, k.extPosition,
      k.stateFields, k.address, k.uptime, k.context⟩⟩

/-- Settles O56: `reset` sets the latch, a packet clears it if directly addressed, no other operation writes it. -/
theorem latchIsSetOnlyByReset : Obligations.LatchIsSetOnlyByReset := by
  intro i s t h
  refine ⟨?_, fun hi => exec_latch hi h⟩
  rintro rfl
  cases h
  rfl

end Sys2Proof.Frames

/-! PROOFS. The channel queues and the data-space store (20_memory.md): no operation but a cutout and a reset takes an
entry from a queue (rules R85, R87), and DATA_SPACE_READ serves the store (rules R74, R347). -/

namespace Sys2Proof.Memory

open Sys2Proof.Machine Sys2Proof.Claims Sys2Proof.Frames

section Lemmas

variable {cfg : Config} {d d' : Decoder} {s t : State} {i : Instr}

/-! ### Queued entries keep their place -/

/-- Both queues of `d'` begin with what those of `d` hold, in its order (rules R85, R87). -/
def KeepsQueues (d d' : Decoder) : Prop := d.ch1Q <+: d'.ch1Q ∧ d.ch2Q <+: d'.ch2Q

/-- An operation that writes neither queue. -/
theorem KeepsQueues.of_eq (h1 : d'.ch1Q = d.ch1Q) (h2 : d'.ch2Q = d.ch2Q) : KeepsQueues d d' :=
  ⟨h1 ▸ List.prefix_rfl, h2 ▸ List.prefix_rfl⟩

theorem KeepsQueues.of_extends (h : Extends d d') : KeepsQueues d d' :=
  ⟨h.ch1Q, h.ch2Q⟩

theorem runCmd_keepsQueues {cmd : Cmd} (ht : runCmd cmd s = .next t) : KeepsQueues s.dec t.dec := by
  rw [(runCmd_eq_next cmd).1 ht]
  exact .of_extends (dccPacket_extends s.cfg cmd s.dec)

theorem readBytes_keepsQueues {bytes : List Byte} {calls : List Call} (ht : readBytes bytes calls s = .next t) :
    KeepsQueues s.dec t.dec := by
  rw [(readBytes_eq_next bytes calls).1 ht]
  exact .of_eq rfl rfl

theorem callsOnly_keepsQueues {calls : List Call} (ht : callsOnly calls s = .next t) : KeepsQueues s.dec t.dec := by
  rw [(callsOnly_eq_next calls).1 ht]
  exact .of_eq rfl rfl

/-- The decoder half an operation leaves is named as one value, which unification can read off an arm of `exec`. -/
theorem onDecoder_keepsQueues {d' : Decoder} (ht : onDecoder (fun _ _ => d') s = .next t)
    (h : KeepsQueues s.dec d') : KeepsQueues s.dec t.dec := by
  rw [(onDecoder_eq_next _).1 ht]
  exact h

/-- A send, or the CV-Auto tick. -/
theorem send_keepsQueues {d' : Decoder} (ht : onDecoder (fun _ _ => d') s = .next t)
    (h : Extends s.dec d') : KeepsQueues s.dec t.dec :=
  onDecoder_keepsQueues ht (.of_extends h)

/-- As in `onDecoder_keepsQueues`, the half an operation leaves is named as one value. -/
theorem onReceiver_keepsQueues {r' : Receiver} (ht : onReceiver (fun _ => r') s = .next t) :
    KeepsQueues s.dec t.dec := by
  rw [(onReceiver_eq_next _).1 ht]
  exact .of_eq rfl rfl

/-- Every instruction but `reset` and `cutout_start` keeps the queues, by the shared operation that is its meaning: a
packet, a send and a tick only append, a read and a configuration write do not touch them. -/
theorem exec_keepsQueues (hreset : i ≠ .opReset) (hcutout : ∀ elapsed, i ≠ .trigCutoutStart elapsed)
    (ht : exec i s = .next t) : KeepsQueues s.dec t.dec := by
  cases i with
  | opReset => exact absurd rfl hreset
  | trigCutoutStart elapsed => exact absurd rfl (hcutout elapsed)
  | dccLogonEnable | dccSelect | dccLogonAssign | dccGetDataStart | dccGetDataCont | dccSetData | dccSetDataEnd
  | dccPomReadBroadcast | dccPomReadShort | dccPomReadLong
  | dccPomWriteBroadcast | dccPomWriteShort | dccPomWriteLong
  | dccPomWriteBitBroadcast | dccPomWriteBitShort | dccPomWriteBitLong
  | dccFunctionG1Broadcast | dccFunctionG1Short | dccFunctionG1Long
  | dccFunctionG2F5Broadcast | dccFunctionG2F5Short | dccFunctionG2F5Long
  | dccFunctionG2F9Broadcast | dccFunctionG2F9Short | dccFunctionG2F9Long
  | dccExtFunctionBroadcast | dccExtFunctionShort | dccExtFunctionLong
  | dccDataSpaceReadBroadcast | dccDataSpaceReadShort | dccDataSpaceReadLong
  | dccAccessory | trigDccPacket => exact runCmd_keepsQueues ht
  | dgPom | dgAdrHigh | dgAdrLow | dgExt | dgStat4 | dgDrivingInfo | dgBasicInfo | dgStat1 | dgTime | dgError | dgDyn
  | dgXpom0 | dgXpom1 | dgXpom2 | dgXpom3 | dgStat2 | dgCvAuto | dgBlock | dgDecoderState | dgRerail
  | dgDecoderUnique | dgSrq | dgDataSpace
  | symAck1 | symAck2 | symNack | symData | opRxRead => exact readBytes_keepsQueues ht
  | opRxSetContext | opRxExpectDataSpace | opRxCacheTimeout => exact onReceiver_keepsQueues ht
  | opTxBegin | opTxEnd | opRxBegin | opRxEnd => exact callsOnly_keepsQueues ht
  | opCvAutoTick => exact send_keepsQueues ht cvAutoTick_extends
  | opSendPom | opSendDynamic | opSendStatus1 | opSendStatus2 | opSendStatus4 | opSendError | opSendCvAuto | opSendExt
  | opSendDrivingInfo | opSendBasicInfo | opSendBlock => exact send_keepsQueues ht (enqueue_extends _ _ _ _)
  | opSendDecoderUnique | opSendDecoderState => exact send_keepsQueues ht (enqueueSplit_extends _ _ _)
  | opSendAddress => exact send_keepsQueues ht (sendAddress_extends _ _ _ _)
  | opSendXpom => exact send_keepsQueues ht (sendXpom_extends _ _ _ _ _)
  | opSendTime => exact send_keepsQueues ht (sendTime_extends _ _)
  | opSendRerail => exact send_keepsQueues ht (sendRerail_extends _ _ _)
  | opSendServiceRequest => exact send_keepsQueues ht (sendServiceRequest_extends _ _)
  | opSendDataSpace => exact send_keepsQueues ht (sendDataSpace_extends _ _)
  | opSecondTick | opSetAddress | opSetIdentity | opSetClass | opSetExtInfoEnabled | opSetExtInfo | opSetExtPosition
  | opSetDecoderStateFields | opLogonReset | opCvSet | opCvClear | opDsSet | opDsClear =>
    exact onDecoder_keepsQueues ht (.of_eq rfl rfl)

/-! ### The queues and the store as the statements see them -/

theorem enqueue_one_eq_push1 (cfg : Config) (e : Entry) (d : Decoder) : enqueue cfg .one e d = push1 cfg e d := by
  unfold push1
  split
  · next h => exact enqueue_one_of_lt e h
  · next h => exact enqueue_one_of_full e (Nat.le_of_not_lt h)

theorem enqueueSplit_eq_pushBoth (cfg : Config) (e : Entry) (d : Decoder) :
    enqueueSplit cfg e d = pushBoth cfg (e.take 2) (e.drop 2) d := by
  unfold pushBoth
  split
  · next h => exact enqueueSplit_of_lt e h.1 h.2
  · next h => exact enqueueSplit_of_full e (by omega)

/-- The store answers with its first record of the number (rule R74). -/
theorem dsFind_eq_find? (num : Byte) (store : List DsRecord) :
    dsFind num store = (store.find? (·.num == num)).map (·.bytes) := by
  induction store with
  | nil => rfl
  | cons r rest ih =>
    by_cases h : r.num = num
    · simp [dsFind, h]
    · simp [dsFind, List.find?_cons_of_neg, h, ih]

/-! ### Datagrams of 12 bits and the rotation -/

theorem encode4of8_eq_sym (cfg : Config) (v : BitVec 6) : encode4of8 cfg v.toNat = sym cfg v :=
  if_pos (Nat.le_of_lt_succ v.isLt)

/-- A symbol's bits at the front are packed as that symbol (rules R101, R165). -/
theorem encodeRaw_symbol (cfg : Config) (v : BitVec 6) (rest : List Bool) :
    encodeRaw cfg (bitsOf 6 v.toNat ++ rest) = sym cfg v :: encodeRaw cfg rest := by
  rw [encodeRaw_six (length_bitsOf 6 _), bitsVal_bitsOf, Nat.mod_eq_of_lt v.isLt, encode4of8_eq_sym]

/-- Format DG12 (rule R106): an ID and a byte are packed as two symbols. -/
theorem encodeDatagram_eq_dg12 (cfg : Config) (id : BitVec 4) (p : Byte) :
    encodeDatagram cfg id p.toNat 8 = dg12 cfg id p := by
  have hp : p.extractLsb' 6 2 ++ p.extractLsb' 0 6 = p := append_extract (m := 2) (n := 6) p
  have hbits : bitsOf 4 id.toNat ++ bitsOf 8 p.toNat =
      bitsOf 6 (id ++ p.extractLsb' 6 2).toNat ++ (bitsOf 6 (p.extractLsb' 0 6).toNat ++ []) := by
    calc bitsOf 4 id.toNat ++ bitsOf 8 p.toNat
      _ = bitsOf 4 id.toNat ++ bitsOf (2 + 6) (p.extractLsb' 6 2 ++ p.extractLsb' 0 6).toNat := by rw [hp]
      _ = bitsOf (4 + 2) (id ++ p.extractLsb' 6 2).toNat ++ (bitsOf 6 (p.extractLsb' 0 6).toNat ++ []) := by
        rw [bitsOf_toNat_append, bitsOf_toNat_append, List.append_assoc, List.append_nil]
  rw [encodeDatagram, hbits, encodeRaw_symbol, encodeRaw_symbol]
  rfl

theorem rotationBytes_eq_rotationDatagram (cfg : Config) (a : BitVec 14) (long : Bool) (d : Decoder) :
    rotationBytes cfg a long d = rotationDatagram cfg a long d := by
  unfold rotationBytes rotationDatagram
  split
  · next h => rw [h]; exact encodeDatagram_eq_dg12 cfg 1 _
  · next h => rw [h]; exact encodeDatagram_eq_dg12 cfg 2 _
  · next h => rw [h]; exact encodeDatagram_eq_dg12 cfg 4 _

/-- One call of `sendAddress` is one step of the rotation (rule R226). -/
theorem sendAddress_eq_rotate (cfg : Config) (a : BitVec 14) (long : Bool) (d : Decoder) :
    sendAddress cfg a long d = rotate cfg a long d := by
  have hnext : rotNext d.extInfoEnabled d.rotIndex =
      Fin.ofNat 3 ((d.rotIndex.val + 1) % (if d.extInfoEnabled then 3 else 2)) := by
    cases d.extInfoEnabled <;> rfl
  rw [sendAddress, rotate, rotationBytes_eq_rotationDatagram, enqueue_one_eq_push1, hnext]

/-! ### Mobile commands -/

/-- No handler writes the broadcast latch (rule R32). -/
theorem handle_latch (cfg : Config) (cmd : Cmd) (d : Decoder) :
    (handle cfg cmd d).1.ch1BroadcastEnabled = d.ch1BroadcastEnabled := by
  rcases handle_addressing cfg cmd d with h | ⟨-, h⟩
  · obtain ⟨-, -, hlatch⟩ := addressing_eq_iff.1 h
    exact hlatch
  · exact h

/-- A directly addressed command clears the latch, so that only its handler answers (rules R320, R322, R324). -/
theorem handleRecognised_of_own {cmd : Cmd} (h : own cmd d = true) :
    handleRecognised cfg cmd d = handle cfg cmd (unlatched d) := by
  have hclear : clearLatch cmd d = unlatched d := if_pos h
  have hlatch : (handle cfg cmd (unlatched d)).1.ch1BroadcastEnabled = false := handle_latch cfg cmd _
  unfold handleRecognised
  rw [hclear]
  exact if_neg (by simp [defaultApplies, hlatch])

/-- A command of another decoder that is no logon command is answered by the default broadcast (rule R324). -/
theorem handleRecognised_of_not_own {cmd : Cmd} (h : own cmd d = false) (hlogon : isLogon cmd = false)
    (hidle : handle cfg cmd d = (d, false)) : handleRecognised cfg cmd d = (defaultAnswer cfg d, false) := by
  have hclear : clearLatch cmd d = d := if_neg (by simp [h])
  unfold handleRecognised defaultAnswer
  rw [hclear, hidle, ← sendAddress_eq_rotate]
  by_cases hd : d.decoderClass = .mobile ∧ d.ch1BroadcastEnabled = true
  · simp [defaultApplies, hlogon, hd]
  · have happlies : defaultApplies cmd d = false := by simpa [defaultApplies, hlogon] using hd
    simp [happlies, hd]

/-- The latch has no part in the test for a directly addressed command (rule R322). -/
theorem own_unlatched (cmd : Cmd) (d : Decoder) : own cmd (unlatched d) = own cmd d := by
  cases cmd <;> rfl

/-- A recognised command that is no logon command and has an answer only where it is directly addressed (rules R320,
R324). -/
theorem runCmd_eq_mobileGives {cmd : Cmd} {answer : Decoder → Decoder × Bool} (hnone : cmd ≠ .none)
    (hlogon : isLogon cmd = false)
    (hanswer : ∀ d, handle s.cfg cmd d = if own cmd d then answer d else (d, false)) :
    runCmd cmd s = mobileGives s (addressed cmd s.dec) cmd answer := by
  rw [← own_eq_addressed, runCmd, dccPacket, if_neg hnone]
  cases hown : own cmd s.dec with
  | true =>
    rw [handleRecognised_of_own hown, hanswer, own_unlatched, hown]
    rfl
  | false =>
    have hidle : handle s.cfg cmd s.dec = (s.dec, false) := by simp [hanswer, hown]
    rw [handleRecognised_of_not_own hown hlogon hidle]
    rfl

/-- A Short form packet carries a 7-bit address (rules R112, R322). -/
theorem ownMobile_short_setWidth (a : BitVec 7) (d : Decoder) :
    ownMobile .short (a.setWidth 14) d = ownShort a d := by
  obtain ⟨hlt, hlow⟩ := (eq_setWidth_iff (a.setWidth 14) a).1 rfl
  rw [ownMobile, ← hlow, decide_eq_true hlt, Bool.true_and]

/-! ### Reading a data space -/

/-- A slice has at most 16 bytes, so its response is built and split over the channels (rules R74, R224, R247). -/
theorem sendDataSpace_of_dsSlice {num : Byte} {off : Nat} {store : List DsRecord} {chunk : List Byte}
    (h : dsSlice num off store = some chunk) :
    sendDataSpace cfg num chunk d =
      pushBoth cfg ((responseWire cfg num chunk).take 2) ((responseWire cfg num chunk).drop 2) d := by
  obtain ⟨-, hlen⟩ := length_dsSlice h
  rw [sendDataSpace, if_neg (Nat.not_lt.2 hlen), enqueueSplit_eq_pushBoth]
  rfl

/-- The handler serves the data space from the offset on (rule R347). -/
theorem handleDataSpaceRead_eq (cfg : Config) (num off : Byte) (d : Decoder) :
    handleDataSpaceRead cfg num off d =
      match d.ds.find? (·.num == num) with
      | none => (d, false)
      | some r =>
        if r.bytes.length ≤ off.toNat then (d, false)
        else
          let wire := responseWire cfg num ((r.bytes.drop off.toNat).take 16)
          (pushBoth cfg (wire.take 2) (wire.drop 2) d, true) := by
  have hslice : dsSlice num off.toNat d.ds =
      (d.ds.find? (·.num == num)).bind fun r =>
        if r.bytes.length ≤ off.toNat then none else some ((r.bytes.drop off.toNat).take 16) := by
    rw [dsSlice, dsFind_eq_find?]
    cases d.ds.find? (·.num == num) <;> rfl
  unfold handleDataSpaceRead
  cases hfind : d.ds.find? (·.num == num) with
  | none => rw [hslice, hfind]; rfl
  | some r =>
    by_cases hlen : r.bytes.length ≤ off.toNat
    · have hnone : dsSlice num off.toNat d.ds = none := by rw [hslice, hfind]; exact if_pos hlen
      simp [hnone, hlen]
    · have hsome : dsSlice num off.toNat d.ds = some ((r.bytes.drop off.toNat).take 16) := by
        rw [hslice, hfind]; exact if_neg hlen
      simp [hsome, hlen, sendDataSpace_of_dsSlice hsome]

/-- DATA_SPACE_READ in any address form (rule R347). -/
theorem runCmd_dataSpaceRead (form : AddrForm) (a : BitVec 14) (num off : Byte) (s : State) :
    runCmd (.dataSpaceRead form a num off) s =
      mobileGives s (ownMobile form a s.dec) (.dataSpaceRead form a num off) (handleDataSpaceRead s.cfg num off) :=
  runCmd_eq_mobileGives (by simp) rfl fun _ => rfl

end Lemmas

/-! ### The obligations -/

/-- Settles O24: the shared operation behind each instruction appends to a queue or leaves it alone. -/
theorem queuedEntriesKeepTheirPlace : Obligations.QueuedEntriesKeepTheirPlace :=
  fun _ _ _ ht hreset hcutout => exec_keepsQueues hreset hcutout ht

/-- Settles O52: the three packets are one command in three address forms. -/
theorem dataSpaceReadCommand : Obligations.DataSpaceReadCommand := by
  intro s n o e answer
  have hanswer : handleDataSpaceRead s.cfg n o = answer := funext (handleDataSpaceRead_eq s.cfg n o)
  rw [← hanswer]
  refine ⟨runCmd_dataSpaceRead .broadcast 0 n o s, fun a => ?_, fun a => runCmd_dataSpaceRead .long a n o s⟩
  rw [← ownMobile_short_setWidth]
  exact runCmd_dataSpaceRead .short (shortAddress a) n o s

end Sys2Proof.Memory

/-! PROOFS. The wire formats (30_encoding.md): the symbol code on the bytes it packs (rules R101, R102, R106), the
formats of the DCC packets (rules R111 to R118), the host port (rule R120), and the round trips through them. -/

namespace Sys2Proof.Encoding

open Sys2Proof.Machine Sys2Proof.Claims Sys2Proof.Memory

section Codec

variable {cfg : Config}

/-! ### The symbol code -/

/-- No ACK and no NACK is an entry of the table (rule R101). -/
theorem not_mem_table (h : cfg.encOk) {b : Byte} (hb : b ∈ [ack1, ack2, nack]) : b ∉ cfg.enc4of8 := by
  obtain ⟨-, -, hsym⟩ := h
  intro hmem
  obtain ⟨-, h1, h2, h3⟩ := hsym b hmem
  simp [h1, h2, h3] at hb

/-- A byte that is neither an ACK nor the NACK is looked up in the table, whatever its weight (rules R101, R152). -/
theorem decode4of8_of_ne (h : cfg.encOk) {b : Byte} (h1 : b ≠ ack1) (h2 : b ≠ ack2) (h3 : b ≠ nack) :
    decode4of8 cfg b =
      match cfg.enc4of8.idxOf? b with
      | some v => .data (BitVec.ofNat 6 v)
      | none => .invalid := by
  obtain ⟨hlen, -, hsym⟩ := h
  rw [decode4of8, if_neg h1, if_neg h2, if_neg h3, List.take_of_length_le (Nat.le_of_eq hlen)]
  split
  · next hw =>
    have hb : b ∉ cfg.enc4of8 := fun hb => hw (hsym b hb).1
    rw [List.idxOf?_eq_none_iff.2 hb]
  · rfl

/-- Decoding a data symbol gives its value back (rule R153). -/
theorem decode4of8_sym (h : cfg.encOk) (v : BitVec 6) : decode4of8 cfg (sym cfg v) = .data v := by
  obtain ⟨hlen, hnodup, hsym⟩ := id h
  have hv : v.toNat < cfg.enc4of8.length := by omega
  have hget : sym cfg v = cfg.enc4of8[v.toNat] := List.getD_eq_getElem _ _ hv
  obtain ⟨-, h1, h2, h3⟩ := hsym _ (List.getElem_mem hv)
  have hidx : cfg.enc4of8.idxOf? cfg.enc4of8[v.toNat] = some v.toNat := by
    refine List.idxOf?_eq_some_iff.2 ⟨hv, rfl, fun j hj e => ?_⟩
    have := (hnodup.getElem_inj_iff (hi := by omega) (hj := hv)).1 e
    omega
  rw [hget, decode4of8_of_ne h h1 h2 h3, hidx]
  simp

/-- A byte is invalid where it is neither an ACK, nor the NACK, nor a table entry (rule R153). -/
theorem decode4of8_eq_invalid_iff (h : cfg.encOk) (b : Byte) :
    decode4of8 cfg b = .invalid ↔ b ∉ [ack1, ack2, nack] ++ cfg.enc4of8 := by
  by_cases h1 : b = ack1
  · simp [h1, decode4of8]
  by_cases h2 : b = ack2
  · simp [h2, decode4of8, show ack2 ≠ ack1 by decide]
  by_cases h3 : b = nack
  · simp [h3, decode4of8, show nack ≠ ack1 by decide, show nack ≠ ack2 by decide]
  rw [decode4of8_of_ne h h1 h2 h3]
  cases hidx : cfg.enc4of8.idxOf? b with
  | none => simpa [h1, h2, h3] using List.idxOf?_eq_none_iff.1 hidx
  | some v =>
    obtain ⟨hv, rfl, -⟩ := List.idxOf?_eq_some_iff.1 hidx
    simp

/-! ### The symbols of packed bits -/

/-- What the transmitter packs the receiver reads as data symbols, and they spell the bits and the padding (rules R165,
R169). -/
theorem dataSymbols_map_encode4of8 (h : cfg.encOk) {bits : List Bool} (h6 : bits.length % 6 = 0) :
    ∃ symbols, dataSymbols cfg ((sixes bits).map (encode4of8 cfg)) = some symbols ∧ unpack symbols = bits := by
  induction hn : bits.length using Nat.strong_induction_on generalizing bits with
  | _ n ih =>
    by_cases hshort : bits.length < 6
    · have hnil : bits = [] := List.eq_nil_of_length_eq_zero (by omega)
      exact ⟨[], by simp [hnil, sixes, dataSymbols], by simp [hnil, unpack]⟩
    · have hlen : (bits.take 6).length = 6 := by simp; omega
      have hbits : bitsOf 6 (bitsVal (bits.take 6)) = bits.take 6 := by
        simpa only [hlen] using bitsOf_bitsVal (bits.take 6)
      have hlt : bitsVal (bits.take 6) < 2 ^ 6 := by simpa only [hlen] using bitsVal_lt (bits.take 6)
      obtain ⟨rest, hrest, hunpack⟩ := ih (bits.drop 6).length (by simp; omega) (bits := bits.drop 6)
        (by simp; omega) rfl
      have hhead : decode4of8 cfg (encode4of8 cfg (bitsVal (bits.take 6))) =
          .data (BitVec.ofNat 6 (bitsVal (bits.take 6))) := by
        rw [← decode4of8_sym h, ← encode4of8_eq_sym, BitVec.toNat_ofNat, Nat.mod_eq_of_lt hlt]
      refine ⟨BitVec.ofNat 6 (bitsVal (bits.take 6)) :: rest, ?_, ?_⟩
      · conv_lhs => rw [← List.take_append_drop 6 bits]
        simp only [sixes_append hlen, List.map_cons, dataSymbols, hhead, hrest, Option.map_some]
      · calc unpack (BitVec.ofNat 6 (bitsVal (bits.take 6)) :: rest)
          _ = bitsOf 6 (bitsVal (bits.take 6)) ++ unpack rest := by
            rw [unpack, List.flatMap_cons, BitVec.toNat_ofNat, Nat.mod_eq_of_lt hlt, unpack]
          _ = bits := by rw [hbits, hunpack, List.take_append_drop]

/-- The zero bits that fill a bit string up to whole symbols (rule R165). -/
def padding (bits : List Bool) : List Bool := List.replicate ((6 - bits.length % 6) % 6) false

theorem length_padding_lt (bits : List Bool) : (padding bits).length < 6 := by
  simp only [padding, List.length_replicate]
  omega

theorem dataSymbols_encodeRaw (h : cfg.encOk) (bits : List Bool) :
    ∃ symbols, dataSymbols cfg (encodeRaw cfg bits) = some symbols ∧ unpack symbols = bits ++ padding bits :=
  dataSymbols_map_encode4of8 h (by simp only [List.length_append, List.length_replicate]; omega)

/-- Whole symbols need no padding. -/
theorem dataSymbols_encodeRaw_whole (h : cfg.encOk) {bits : List Bool} (h6 : bits.length % 6 = 0) :
    ∃ symbols, dataSymbols cfg (encodeRaw cfg bits) = some symbols ∧ unpack symbols = bits := by
  obtain ⟨symbols, hs, hu⟩ := dataSymbols_encodeRaw h bits
  exact ⟨symbols, hs, by simpa [padding, h6] using hu⟩

/-! ### The four ID-headed formats -/

/-- The six bits at position `n` of a payload are one symbol (rule R106). -/
theorem encodeRaw_field {k : Nat} (x : BitVec k) (n : Nat) :
    encodeRaw cfg (bitsOf (6 + n) x.toNat) = sym cfg (x.extractLsb' n 6) :: encodeRaw cfg (bitsOf n x.toNat) := by
  rw [bitsOf_add, encodeRaw_six (length_bitsOf 6 _), bitsVal_bitsOf, ← BitVec.extractLsb'_toNat, encode4of8_eq_sym]

theorem encodeRaw_bitsOf_zero (v : Nat) : encodeRaw cfg (bitsOf 0 v) = [] :=
  show encodeRaw cfg [] = [] from rfl

/-- The ID and the two highest payload bits are the first symbol (rule R106). -/
theorem encodeDatagram_head (id : BitVec 4) {k : Nat} (p : BitVec k) (n : Nat) :
    encodeDatagram cfg id p.toNat (2 + n) =
      sym cfg (id ++ p.extractLsb' n 2) :: encodeRaw cfg (bitsOf n p.toNat) := by
  have hfirst : bitsOf 4 id.toNat ++ bitsOf 2 (p.toNat >>> n) = bitsOf 6 (id ++ p.extractLsb' n 2).toNat := by
    rw [bitsOf_toNat_append (m := 4) (n := 2), BitVec.extractLsb'_toNat]
    simpa using congrArg (bitsOf 4 id.toNat ++ ·) (bitsOf_bitsVal (bitsOf 2 (p.toNat >>> n))).symm
  rw [encodeDatagram, bitsOf_add, ← List.append_assoc, hfirst, encodeRaw_symbol]

/-- Format DG18 (rule R106). -/
theorem encodeDatagram_eq_dg18 (cfg : Config) (id : BitVec 4) (p : BitVec 14) :
    encodeDatagram cfg id p.toNat 14 = dg18 cfg id p := by
  rw [encodeDatagram_head id p 12, encodeRaw_field p 6, encodeRaw_field p 0,
    encodeRaw_bitsOf_zero]
  rfl

/-- Format DG36 (rule R106). -/
theorem encodeDatagram_eq_dg36 (cfg : Config) (id : BitVec 4) (p : Word32) :
    encodeDatagram cfg id p.toNat 32 = dg36 cfg id p := by
  rw [encodeDatagram_head id p 30, encodeRaw_field p 24, encodeRaw_field p 18, encodeRaw_field p 12,
    encodeRaw_field p 6, encodeRaw_field p 0,
    encodeRaw_bitsOf_zero]
  rfl

/-- Format DG48 (rule R106). -/
theorem encodeDatagram_eq_dg48 (cfg : Config) (id : BitVec 4) (p : BitVec 44) :
    encodeDatagram cfg id p.toNat 44 = dg48Head cfg id p ++ dg48Tail cfg p := by
  rw [encodeDatagram_head id p 42, encodeRaw_field p 36, encodeRaw_field p 30, encodeRaw_field p 24,
    encodeRaw_field p 18, encodeRaw_field p 12, encodeRaw_field p 6, encodeRaw_field p 0,
    encodeRaw_bitsOf_zero]
  rfl

/-! ### Counting the bytes -/

/-- The 256 bytes. -/
def allBytes : List Byte := (List.range 256).map (BitVec.ofNat 8)

theorem mem_allBytes (b : Byte) : b ∈ allBytes :=
  List.mem_map.2 ⟨b.toNat, List.mem_range.2 b.isLt, by simp⟩

theorem allBytes_nodup : allBytes.Nodup := by
  refine List.nodup_range.map_on fun m hm n hn e => ?_
  have hnat := congrArg BitVec.toNat e
  simp only [List.mem_range] at hm hn
  simp only [BitVec.toNat_ofNat] at hnat
  omega

/-- A count over the numbers below 256 is a count over the bytes. -/
theorem countP_range_ofNat (p : Byte → Bool) :
    (List.range 256).countP (fun n => p (BitVec.ofNat 8 n)) = allBytes.countP p := by
  rw [allBytes, List.countP_map]
  rfl

/-- The two halves of the range; the kernel counts over each apart. -/
theorem range_256 : List.range 256 = List.range 128 ++ (List.range 128).map (128 + ·) :=
  List.range_add (n := 128) (m := 128)

theorem countP_allBytes (p : Byte → Bool) :
    allBytes.countP p = (List.range 128).countP (fun n => p (BitVec.ofNat 8 n)) +
      (List.range 128).countP fun n => p (BitVec.ofNat 8 (128 + n)) := by
  rw [← countP_range_ofNat, range_256, List.countP_append, List.countP_map]
  rfl

/-- The choices of 4 bits out of 8 (rule R102). -/
theorem countP_weight_four : allBytes.countP (fun b => weight b == 4) = 70 := by
  have hlow : (List.range 128).countP (fun n => weight (BitVec.ofNat 8 n) == 4) = 35 := by decide
  have hhigh : (List.range 128).countP (fun n => weight (BitVec.ofNat 8 (128 + n)) == 4) = 35 := by decide
  rw [countP_allBytes, hlow, hhigh]

theorem countP_weight_ne_four : allBytes.countP (fun b => weight b != 4) = 186 := by
  have hall := List.length_eq_countP_add_countP (fun b => weight b == 4) (l := allBytes)
  have hlen : allBytes.length = 256 := by simp [allBytes]
  rw [hlen, countP_weight_four] at hall
  have hbne : (fun b : Byte => decide (¬(weight b == 4) = true)) = fun b => weight b != 4 := by
    funext b
    by_cases hb : weight b = 4 <;> simp [hb]
  rw [hbne] at hall
  omega

theorem weight_of_mem (h : cfg.encOk) {b : Byte} (hb : b ∈ [ack1, ack2, nack] ++ cfg.enc4of8) : weight b = 4 := by
  obtain ⟨-, -, hsym⟩ := h
  rcases List.mem_append.1 hb with hb | hb
  · simp only [List.mem_cons, List.not_mem_nil, or_false] at hb
    rcases hb with rfl | rfl | rfl <;> decide
  · exact (hsym b hb).1

/-- The assigned bytes are the three of rule R100 and the 64 entries of the table, all distinct (rule R101). -/
theorem assigned_nodup (h : cfg.encOk) : ([ack1, ack2, nack] ++ cfg.enc4of8).Nodup := by
  obtain ⟨-, hnodup, -⟩ := id h
  exact List.nodup_append'.2 ⟨by decide, hnodup, fun _ hb => not_mem_table h hb⟩

/-- Of the bytes of weight 4 the valid ones are the 67 assigned bytes (rules R101, R102). -/
theorem countP_valid (h : cfg.encOk) :
    (allBytes.filter fun b => weight b == 4).countP (fun b => !(decode4of8 cfg b == .invalid)) = 67 := by
  obtain ⟨hlen, -⟩ := id h
  have hperm : ((allBytes.filter fun b => weight b == 4).filter fun b => !(decode4of8 cfg b == .invalid)).Perm
      ([ack1, ack2, nack] ++ cfg.enc4of8) := by
    refine (List.perm_ext_iff_of_nodup ((allBytes_nodup.filter _).filter _) (assigned_nodup h)).2 fun b => ?_
    have hvalid := (decode4of8_eq_invalid_iff h b).not
    simp only [not_not] at hvalid
    simp only [List.mem_filter, mem_allBytes, true_and, beq_iff_eq, Bool.not_eq_true', beq_eq_false_iff_ne,
      hvalid]
    exact ⟨fun hb => hb.2, fun hb => ⟨weight_of_mem h hb, hb⟩⟩
  rw [List.countP_eq_length_filter, hperm.length_eq]
  simp [hlen]

/-- So three bytes of weight 4 are unassigned (rule R102). -/
theorem countP_unassigned (h : cfg.encOk) :
    allBytes.countP (fun b => weight b == 4 && decode4of8 cfg b == .invalid) = 3 := by
  have hall := List.length_eq_countP_add_countP (fun b => decode4of8 cfg b == .invalid)
    (l := allBytes.filter fun b => weight b == 4)
  have hvalid := countP_valid h
  have hfour := countP_weight_four
  rw [List.countP_eq_length_filter] at hfour
  simp only [List.countP_filter, Bool.and_comm] at hall hvalid ⊢
  simp only [Bool.not_eq_true, Bool.decide_eq_false] at hall
  omega

/-- Every byte of another weight is invalid (rule R102). -/
theorem countP_other_weight (h : cfg.encOk) :
    allBytes.countP (fun b => weight b != 4 && decode4of8 cfg b == .invalid) = 186 := by
  have hinvalid : ∀ b, weight b ≠ 4 → decode4of8 cfg b = .invalid := fun b hw =>
    (decode4of8_eq_invalid_iff h b).2 fun hb => hw (weight_of_mem h hb)
  rw [← countP_weight_ne_four]
  refine List.countP_congr fun b _ => ?_
  simp only [Bool.and_eq_true, bne_iff_ne, beq_iff_eq, ne_eq]
  exact ⟨fun hb => hb.1, fun hw => ⟨hw, hinvalid b hw⟩⟩

/-- The three unassigned bytes of the default table (rule R102). -/
theorem default_unassigned :
    (List.range 256).filter (fun n => weight (BitVec.ofNat 8 n) == 4 &&
      decode4of8 Config.default (BitVec.ofNat 8 n) == .invalid) = [0x87, 0xC3, 0xE1] := by
  have hlow : (List.range 128).filter (fun n => weight (BitVec.ofNat 8 n) == 4 &&
      decode4of8 Config.default (BitVec.ofNat 8 n) == .invalid) = [] := by decide
  have hhigh : (List.range 128).filter (fun n => weight (BitVec.ofNat 8 (128 + n)) == 4 &&
      decode4of8 Config.default (BitVec.ofNat 8 (128 + n)) == .invalid) = [0x07, 0x43, 0x61] := by decide
  rw [range_256, List.filter_append, List.filter_map, hlow]
  exact congrArg (List.map (128 + ·)) hhigh

end Codec

section Packets

variable {cfg : Config} {pkt : List Byte} {i : Instr}

/-! ### The formats of the DCC packets -/

@[simp] theorem splitLast_append (init : List Byte) (last : Byte) :
    splitLast (init ++ [last]) = some (init, last) := by
  induction init with
  | nil => rfl
  | cons b rest ih =>
    cases rest with
    | nil => rfl
    | cons c more =>
      rw [List.cons_append] at ih
      simp only [List.cons_append, splitLast, ih]

theorem eq_append_of_splitLast {bytes init : List Byte} {last : Byte} (h : splitLast bytes = some (init, last)) :
    bytes = init ++ [last] := by
  rcases List.eq_nil_or_concat' bytes with rfl | ⟨init', last', rfl⟩
  · cases h
  · rw [splitLast_append] at h
    cases h
    rfl

/-- The packet formats of rules R112 to R118, each with its instruction: the rows `DCC.` of the table. -/
inductive PacketOf (cfg : Config) : List Byte → Instr → Prop where
  | logonEnable (group : BitVec 2) (cid : BitVec 16) (session e : Byte) :
    PacketOf cfg [0xFE, 0b111111#6 ++ group, cid.extractLsb' 8 8, cid.extractLsb' 0 8, session, e]
      (.dccLogonEnable group cid session e)
  | select (mfg : BitVec 12) (uid : Word32) (sub : Byte) (params : List Byte) (e : Byte) (h : params.length ≤ 3) :
    PacketOf cfg
      ([0xFE, 0b1101#4 ++ mfg.extractLsb' 8 4, mfg.extractLsb' 0 8] ++ bytes32 uid ++ [sub] ++ params ++ [e])
      (.dccSelect mfg uid sub params e)
  | logonAssign (mfg : BitVec 12) (uid : Word32) (akind : BitVec 2) (addr : BitVec 14) (tail : List Byte) (e : Byte)
      (h : tail.length ≤ 2) :
    PacketOf cfg
      ([0xFE, 0b1110#4 ++ mfg.extractLsb' 8 4, mfg.extractLsb' 0 8] ++ bytes32 uid ++
        [akind ++ addr.extractLsb' 8 6, addr.extractLsb' 0 8] ++ tail ++ [e])
      (.dccLogonAssign mfg uid akind addr tail e)
  | getDataStart (e : Byte) : PacketOf cfg [0xFE, 0x00, e] (.dccGetDataStart e)
  | getDataCont (e : Byte) : PacketOf cfg [0xFE, 0x01, e] (.dccGetDataCont e)
  | setData (data : List Byte) (e : Byte) (h : data.length ≤ 9) :
    PacketOf cfg ([0xFE, 0x02] ++ data ++ [e]) (.dccSetData data e)
  | setDataEnd (data : List Byte) (e : Byte) (h : data.length ≤ 9) :
    PacketOf cfg ([0xFE, 0x03] ++ data ++ [e]) (.dccSetDataEnd data e)
  | accessory (a : BitVec 6) (h : BitVec 3) (c : Bool) (d : BitVec 3) (e : Byte) :
    PacketOf cfg [0b10#2 ++ a, 0b1#1 ++ h ++ BitVec.ofBool c ++ d, e] (.dccAccessory a h c d e)
  | broadcast (m : MobileBody) : PacketOf cfg (0x00 :: encodeBody cfg m) (mobileBroadcast m)
  | short (a : BitVec 7) (m : MobileBody) (h : shortOk a = true) :
    PacketOf cfg ((0#1 ++ a) :: encodeBody cfg m) (mobileShort a m)
  | long (a : BitVec 14) (m : MobileBody) (h : longOk a = true) :
    PacketOf cfg ((0b11#2 ++ a.extractLsb' 8 6) :: a.extractLsb' 0 8 :: encodeBody cfg m) (mobileLong a m)

/-- The encoder writes each instruction in its format. -/
theorem PacketOf.encode_eq (h : PacketOf cfg pkt i) : encode cfg i = .dcc pkt := by
  cases h with
  | broadcast m | short a m | long a m => cases m <;> rfl
  | _ => rfl

theorem length_encodeBody (cfg : Config) (m : MobileBody) :
    2 ≤ (encodeBody cfg m).length ∧ (encodeBody cfg m).length ≤ 4 := by
  cases m <;> simp [encodeBody]

/-- Every format has 3 to 12 bytes (rules R111, R282). -/
theorem PacketOf.length (h : PacketOf cfg pkt i) : 3 ≤ pkt.length ∧ pkt.length ≤ 12 := by
  cases h with
  | logonEnable | getDataStart | getDataCont | accessory => simp
  | select | logonAssign | setData | setDataEnd =>
    simp [bytes32]
    omega
  | broadcast m | short a m | long a m =>
    have hbody := length_encodeBody cfg m
    simp only [List.length_cons]
    omega

/-! ### Decoding what was encoded -/

/-- The third byte of POM_WRITE_BIT (rule R114). -/
theorem writeBit_fields (x : BitVec 4) (d : Bool) (b : BitVec 3) :
    (x ++ BitVec.ofBool d ++ b : Byte).extractLsb' 4 4 = x ∧ (x ++ BitVec.ofBool d ++ b : Byte)[3] = d ∧
      (x ++ BitVec.ofBool d ++ b : Byte).extractLsb' 0 3 = b := by
  revert x d b
  decide

theorem decodeBody_encodeBody (h : cfg.markerOk) (m : MobileBody) : decodeBody cfg (encodeBody cfg m) = some m := by
  obtain ⟨hr, hb, hw, -⟩ := h
  cases m with
  | pomRead | pomWrite =>
    simp [encodeBody, decodeBody, decodeBody4, extract_append_high (m := 6) (n := 2),
      extract_append_low (m := 6) (n := 2), append_extract (m := 2) (n := 8)]
  | pomWriteBit v x d b e =>
    obtain ⟨hx, hd, hb⟩ := writeBit_fields x d b
    simp [encodeBody, decodeBody, decodeBody4, extract_append_high (m := 6) (n := 2),
      extract_append_low (m := 6) (n := 2), append_extract (m := 2) (n := 8), hx, hd, hb]
  | functionG1 =>
    simp [encodeBody, decodeBody, decodeBody2, extract_append_high (m := 3) (n := 5),
      extract_append_low (m := 3) (n := 5)]
  | functionG2F5 | functionG2F9 =>
    simp [encodeBody, decodeBody, decodeBody2, extract_append_high (m := 4) (n := 4),
      extract_append_low (m := 4) (n := 4), extract_append_of_le (m := 4) (n := 4)]
  | extFunction => simp [encodeBody, decodeBody]
  | dataSpaceRead => simp [encodeBody, decodeBody, decodeBody4, hr, hw, hb]

/-- The first byte of a Short form packet stands in no other partition (rules R112, R283). -/
theorem shortByte_partition (a : BitVec 7) (h : shortOk a = true) :
    (0#1 ++ a : Byte) ≠ dccaAddr ∧ (0#1 ++ a : Byte).extractLsb' 6 2 ≠ 0b10#2 ∧ (0#1 ++ a : Byte) ≠ 0#8 ∧
      (0#1 ++ a : Byte).extractLsb' 7 1 = 0#1 ∧ (0#1 ++ a : Byte).extractLsb' 0 7 = a ∧
      1 ≤ (0#1 ++ a : Byte).toNat ∧ (0#1 ++ a : Byte).toNat ≤ 0x7F := by
  revert a
  decide

/-- The first byte of a Long form packet stands in no other partition (rules R112, R283). -/
theorem longByte_partition (a : BitVec 6) (h : a.toNat ≤ 0x27) :
    (0b11#2 ++ a : Byte) ≠ dccaAddr ∧ (0b11#2 ++ a : Byte).extractLsb' 6 2 ≠ 0b10#2 ∧ (0b11#2 ++ a : Byte) ≠ 0#8 ∧
      (0b11#2 ++ a : Byte).extractLsb' 7 1 ≠ 0#1 ∧ (0b11#2 ++ a : Byte).extractLsb' 0 6 = a ∧
      0xC0 ≤ (0b11#2 ++ a : Byte).toNat ∧ (0b11#2 ++ a : Byte).toNat ≤ 0xE7 := by
  revert a
  decide

/-- The two bytes of an accessory packet (rule R115). -/
theorem accessoryFirstByte_partition (a : BitVec 6) :
    (0b10#2 ++ a : Byte) ≠ dccaAddr ∧ (0b10#2 ++ a : Byte).extractLsb' 6 2 = 0b10#2 ∧
      (0b10#2 ++ a : Byte).extractLsb' 0 6 = a ∧
      0x80 ≤ (0b10#2 ++ a : Byte).toNat ∧ (0b10#2 ++ a : Byte).toNat ≤ 0xBF := by
  revert a
  decide

theorem accessorySecondByte_fields (h : BitVec 3) (c : Bool) (d : BitVec 3) :
    (0b1#1 ++ h ++ BitVec.ofBool c ++ d : Byte).getLsbD 7 = true ∧
      (0b1#1 ++ h ++ BitVec.ofBool c ++ d : Byte).extractLsb' 4 3 = h ∧
      (0b1#1 ++ h ++ BitVec.ofBool c ++ d : Byte)[3] = c ∧
      (0b1#1 ++ h ++ BitVec.ofBool c ++ d : Byte).extractLsb' 0 3 = d := by
  revert h c d
  decide

/-- The command byte of SELECT and of LOGON_ASSIGN is none of LOGON_ENABLE (rules R113, R284). -/
theorem identityByte_ne_logonEnable (m : BitVec 4) :
    (0b1101#4 ++ m : Byte).extractLsb' 2 6 ≠ 0b111111#6 ∧ (0b1110#4 ++ m : Byte).extractLsb' 2 6 ≠ 0b111111#6 := by
  revert m
  decide

/-- Four bytes of a unique ID, put together (rule R286). -/
theorem append_bytes32 (uid : Word32) :
    uid.extractLsb' 24 8 ++ uid.extractLsb' 16 8 ++ uid.extractLsb' 8 8 ++ uid.extractLsb' 0 8 = uid := by
  rw [extract_append_extract (n := 8) (m := 8) uid 16, extract_append_extract (n := 8) (m := 16) uid 8]
  exact append_extract (m := 24) (n := 8) uid

theorem decodeFormat_of_packetOf (hm : cfg.markerOk) (h : PacketOf cfg pkt i) : decodeFormat cfg pkt = some i := by
  have hbody := decodeBody_encodeBody hm
  cases h with
  | logonEnable group cid session e =>
    simp [decodeFormat, dccaAddr, decodeDcca, decodeLogonEnable, extract_append_high (m := 6) (n := 2),
      extract_append_low (m := 6) (n := 2)]
  | select mfg uid sub params e h =>
    obtain ⟨hne, -⟩ := identityByte_ne_logonEnable (mfg.extractLsb' 8 4)
    simp [decodeFormat, dccaAddr, decodeDcca, decodeSelect, bytes32, h, append_bytes32, hne,
      extract_append_high (m := 4) (n := 4), extract_append_low (m := 4) (n := 4), append_extract (m := 4) (n := 8)]
  | logonAssign mfg uid akind addr tail e h =>
    obtain ⟨-, hne⟩ := identityByte_ne_logonEnable (mfg.extractLsb' 8 4)
    simp [decodeFormat, dccaAddr, decodeDcca, decodeLogonAssign, bytes32, h, append_bytes32, hne,
      extract_append_high (m := 4) (n := 4), extract_append_low (m := 4) (n := 4), append_extract (m := 4) (n := 8),
      extract_append_high (m := 2) (n := 6), extract_append_low (m := 2) (n := 6), append_extract (m := 6) (n := 8)]
  | getDataStart e => rfl
  | getDataCont e => rfl
  | setData data e => simp [decodeFormat, dccaAddr, decodeDcca, decodeData]
  | setDataEnd data e => simp [decodeFormat, dccaAddr, decodeDcca, decodeData]
  | accessory a h c d e =>
    obtain ⟨hne, hpart, ha, -, -⟩ := accessoryFirstByte_partition a
    obtain ⟨h7, hh, hc, hd⟩ := accessorySecondByte_fields h c d
    simp [decodeFormat, decodeAccessory, hne, hpart, ha, h7, hh, hc, hd]
  | broadcast m => simp [decodeFormat, dccaAddr, hbody]
  | short a m ha =>
    obtain ⟨hdcca, hacc, hzero, hpart, hlow, -, -⟩ := shortByte_partition a ha
    simp [decodeFormat, hdcca, hacc, hzero, hpart, hlow, hbody]
  | long a m ha =>
    obtain ⟨hdcca, hacc, hzero, hpart, hlow, -, hle⟩ := longByte_partition (a.extractLsb' 8 6) (of_decide_eq_true ha)
    simp [decodeFormat, hdcca, hacc, hzero, hpart, hlow, hbody, hle, append_extract (m := 6) (n := 8)]


/-- The instruction of a format decodes from its packet, where no other format takes the marker byte (rule R9). -/
theorem decodeDcc_of_packetOf (hm : cfg.markerOk) (h : PacketOf cfg pkt i) : decodeDcc cfg pkt = i := by
  obtain ⟨hmin, hmax⟩ := h.length
  have hlen : ¬ (pkt.length < 3 ∨ dccPktMax < pkt.length) := by
    show ¬ (pkt.length < 3 ∨ 12 < pkt.length)
    omega
  rw [decodeDcc, packetRow, if_neg hlen, decodeFormat_of_packetOf hm h]
  rfl

/-! ### What a packet decodes to -/

theorem eq_encodeBody_of_decodeBody2 {b e : Byte} {m : MobileBody} (h : decodeBody2 b e = some m) :
    [b, e] = encodeBody cfg m := by
  unfold decodeBody2 at h
  split at h
  · next hb =>
    cases h
    simp [encodeBody, append_extract_of_eq (m := 3) (n := 5) hb]
  split at h
  · next hb =>
    cases h
    simp [encodeBody, append_extract_of_eq (m := 4) (n := 4) hb]
  split at h
  · next hb =>
    cases h
    simp [encodeBody, append_extract_of_eq (m := 4) (n := 4) hb]
  · cases h

/-- The third byte of POM_WRITE_BIT is its three fields (rule R114). -/
theorem append_writeBit_fields (b : Byte) :
    (b.extractLsb' 4 4 ++ BitVec.ofBool (b.getLsbD 3) ++ b.extractLsb' 0 3 : Byte) = b := by
  revert b
  decide

theorem eq_encodeBody_of_decodeBody4 {b b1 b2 e : Byte} {m : MobileBody} (h : decodeBody4 cfg b b1 b2 e = some m) :
    [b, b1, b2, e] = encodeBody cfg m := by
  have hv : ∀ x : BitVec 2, (x ++ b1 : BitVec 10).extractLsb' 8 2 = x ∧ (x ++ b1 : BitVec 10).extractLsb' 0 8 = b1 :=
    fun x => ⟨extract_append_high x b1, extract_append_low x b1⟩
  unfold decodeBody4 at h
  split at h
  · next hb =>
    cases h
    simp [encodeBody, hv, append_extract_of_eq (m := 6) (n := 2) hb]
  split at h
  · next hb =>
    cases h
    simp [encodeBody, hv, append_extract_of_eq (m := 6) (n := 2) hb]
  split at h
  · next hb =>
    cases h
    simp only [encodeBody, hv, append_extract_of_eq (m := 6) (n := 2) hb, append_writeBit_fields]
  split at h
  · next hb =>
    cases h
    rw [hb]
    rfl
  · cases h

theorem eq_encodeBody_of_decodeBody {rest : List Byte} {m : MobileBody} (h : decodeBody cfg rest = some m) :
    rest = encodeBody cfg m := by
  unfold decodeBody at h
  split at h
  · exact eq_encodeBody_of_decodeBody2 h
  · split at h
    · next hb =>
      cases h
      rw [hb]
      rfl
    · cases h
  · exact eq_encodeBody_of_decodeBody4 h
  · cases h

theorem packetOf_of_decodeLogonEnable {c : Byte} {rest : List Byte} (hc : c.extractLsb' 2 6 = 0b111111#6)
    (h : decodeLogonEnable c rest = some i) : PacketOf cfg (0xFE :: c :: rest) i := by
  unfold decodeLogonEnable at h
  split at h
  · next c1 c0 session e =>
    cases h
    have hp := PacketOf.logonEnable (cfg := cfg) (c.extractLsb' 0 2) (c1 ++ c0) session e
    rwa [append_extract_of_eq (m := 6) (n := 2) hc, extract_append_high c1 c0, extract_append_low c1 c0] at hp
  · cases h

/-- The bytes of a unique ID put together from four bytes are these (rule R286). -/
theorem bytes32_append_bytes (u3 u2 u1 u0 : Byte) : bytes32 (u3 ++ u2 ++ u1 ++ u0) = [u3, u2, u1, u0] := by
  have h1 : (u3 ++ u2 ++ u1 ++ u0 : Word32).extractLsb' 8 8 = u1 :=
    (extract_append_of_le (u3 ++ u2 ++ u1) u0 8 8 (by decide)).trans (extract_append_low (u3 ++ u2) u1)
  have h2 : (u3 ++ u2 ++ u1 ++ u0 : Word32).extractLsb' 16 8 = u2 := calc
    _ = (u3 ++ u2 ++ u1).extractLsb' 8 8 := extract_append_of_le (u3 ++ u2 ++ u1) u0 16 8 (by decide)
    _ = (u3 ++ u2).extractLsb' 0 8 := extract_append_of_le (u3 ++ u2) u1 8 8 (by decide)
    _ = u2 := extract_append_low u3 u2
  have h3 : (u3 ++ u2 ++ u1 ++ u0 : Word32).extractLsb' 24 8 = u3 := calc
    _ = (u3 ++ u2 ++ u1).extractLsb' 16 8 := extract_append_of_le (u3 ++ u2 ++ u1) u0 24 8 (by decide)
    _ = (u3 ++ u2).extractLsb' 8 8 := extract_append_of_le (u3 ++ u2) u1 16 8 (by decide)
    _ = u3 := extract_append_high u3 u2
  rw [bytes32, h3, h2, h1, extract_append_low (u3 ++ u2 ++ u1) u0]

theorem packetOf_of_decodeSelect {c : Byte} {rest : List Byte} (hc : c.extractLsb' 4 4 = 0b1101#4)
    (h : decodeSelect c rest = some i) : PacketOf cfg (0xFE :: c :: rest) i := by
  unfold decodeSelect at h
  split at h
  · next mfg u3 u2 u1 u0 sub tail =>
    split at h
    · next params e hsplit =>
      split at h
      · next hlen =>
        cases h
        have hp := PacketOf.select (cfg := cfg) (c.extractLsb' 0 4 ++ mfg) (u3 ++ u2 ++ u1 ++ u0) sub params e hlen
        rw [eq_append_of_splitLast hsplit]
        simpa only [extract_append_high (c.extractLsb' 0 4) mfg, extract_append_low (c.extractLsb' 0 4) mfg,
          append_extract_of_eq (m := 4) (n := 4) hc, bytes32_append_bytes, List.cons_append, List.nil_append] using hp
      · cases h
    · cases h
  · cases h

theorem packetOf_of_decodeLogonAssign {c : Byte} {rest : List Byte} (hc : c.extractLsb' 4 4 = 0b1110#4)
    (h : decodeLogonAssign c rest = some i) : PacketOf cfg (0xFE :: c :: rest) i := by
  unfold decodeLogonAssign at h
  split at h
  · next mfg u3 u2 u1 u0 ka a0 tail =>
    split at h
    · next more e hsplit =>
      split at h
      · next hlen =>
        cases h
        have hp := PacketOf.logonAssign (cfg := cfg) (c.extractLsb' 0 4 ++ mfg) (u3 ++ u2 ++ u1 ++ u0)
          (ka.extractLsb' 6 2) (ka.extractLsb' 0 6 ++ a0) more e hlen
        rw [eq_append_of_splitLast hsplit]
        simpa only [extract_append_high (c.extractLsb' 0 4) mfg, extract_append_low (c.extractLsb' 0 4) mfg,
          append_extract_of_eq (m := 4) (n := 4) hc, bytes32_append_bytes, extract_append_high (ka.extractLsb' 0 6) a0,
          extract_append_low (ka.extractLsb' 0 6) a0, append_extract (m := 2) (n := 6) ka,
          List.cons_append, List.nil_append] using hp
      · cases h
    · cases h
  · cases h

/-- SET_DATA and SET_DATA_END carry the bytes between command byte and check byte (rule R289). -/
theorem eq_append_of_decodeData {mk : List Byte → Byte → Instr} {rest : List Byte}
    (h : decodeData mk rest = some i) :
    ∃ data e, rest = data ++ [e] ∧ i = mk data e := by
  unfold decodeData at h
  split at h
  · next data e hsplit =>
    cases h
    exact ⟨data, e, eq_append_of_splitLast hsplit, rfl⟩
  · cases h

theorem packetOf_of_decodeDcca {rest : List Byte} (hlen : rest.length ≤ 11) (h : decodeDcca rest = some i) :
    PacketOf cfg (0xFE :: rest) i := by
  unfold decodeDcca at h
  split at h
  · cases h
  next c tail =>
  split at h
  · next hc => exact packetOf_of_decodeLogonEnable hc h
  split at h
  · next hc => exact packetOf_of_decodeSelect hc h
  split at h
  · next hc => exact packetOf_of_decodeLogonAssign hc h
  split at h
  · next hc =>
    split at h
    · cases h
      rw [hc]
      exact .getDataStart _
    · cases h
  split at h
  · next hc =>
    split at h
    · cases h
      rw [hc]
      exact .getDataCont _
    · cases h
  split at h
  · next hc =>
    obtain ⟨data, e, rfl, rfl⟩ := eq_append_of_decodeData h
    rw [List.length_cons, List.length_append, List.length_singleton] at hlen
    rw [hc]
    exact .setData data e (by omega)
  split at h
  · next hc =>
    obtain ⟨data, e, rfl, rfl⟩ := eq_append_of_decodeData h
    rw [List.length_cons, List.length_append, List.length_singleton] at hlen
    rw [hc]
    exact .setDataEnd data e (by omega)
  · cases h

/-- The second byte of an accessory packet is its fields (rule R115). -/
theorem append_accessory_fields (b : Byte) (h : b.getLsbD 7 = true) :
    (0b1#1 ++ b.extractLsb' 4 3 ++ BitVec.ofBool (b.getLsbD 3) ++ b.extractLsb' 0 3 : Byte) = b := by
  revert b
  decide

theorem packetOf_of_decodeAccessory {b0 : Byte} {rest : List Byte} (h0 : b0.extractLsb' 6 2 = 0b10#2)
    (h : decodeAccessory b0 rest = some i) : PacketOf cfg (b0 :: rest) i := by
  unfold decodeAccessory at h
  split at h
  · next b1 e =>
    split at h
    · next h7 =>
      cases h
      have hp := PacketOf.accessory (cfg := cfg) (b0.extractLsb' 0 6) (b1.extractLsb' 4 3) (b1.getLsbD 3)
        (b1.extractLsb' 0 3) e
      rwa [append_extract_of_eq (m := 2) (n := 6) h0, append_accessory_fields b1 h7] at hp
    · cases h
  · cases h

/-- A first byte of the Short form is its bit 7 and a short address (rules R112, R283). -/
theorem shortByte_eq_of_partition (b : Byte) (h0 : b ≠ 0x00) (h : b.extractLsb' 7 1 = 0b0#1) :
    (0#1 ++ b.extractLsb' 0 7 : Byte) = b ∧ shortOk (b.extractLsb' 0 7) = true := by
  revert b
  decide

/-- A first byte of the Long form is the mark of long addresses and the high part of one (rules R112, R283). -/
theorem longByte_eq_of_partition (b : Byte) (hacc : b.extractLsb' 6 2 ≠ 0b10#2) (hshort : b.extractLsb' 7 1 ≠ 0b0#1)
    (hle : b.toNat ≤ 0xE7) : (0b11#2 ++ b.extractLsb' 0 6 : Byte) = b ∧ (b.extractLsb' 0 6).toNat ≤ 0x27 := by
  revert b
  decide

/-- What the decoder reads from a packet is of a format, under any parameters. -/
theorem packetOf_of_decodeFormat (hlen : pkt.length ≤ 12) (h : decodeFormat cfg pkt = some i) :
    PacketOf cfg pkt i := by
  unfold decodeFormat at h
  split at h
  · cases h
  next b0 rest =>
  split at h
  · next h0 =>
    rw [h0]
    exact packetOf_of_decodeDcca (Nat.le_of_succ_le_succ hlen) h
  split at h
  · next h0 => exact packetOf_of_decodeAccessory h0 h
  next hacc =>
  split at h
  · next h0 =>
    obtain ⟨m, hm, rfl⟩ := Option.map_eq_some_iff.1 h
    rw [h0, eq_encodeBody_of_decodeBody hm]
    exact .broadcast m
  next hzero =>
  split at h
  · next h0 =>
    obtain ⟨m, hm, rfl⟩ := Option.map_eq_some_iff.1 h
    obtain ⟨hb, hok⟩ := shortByte_eq_of_partition b0 hzero h0
    have hp := PacketOf.short (cfg := cfg) (b0.extractLsb' 0 7) m hok
    rwa [hb, ← eq_encodeBody_of_decodeBody hm] at hp
  next hshort =>
  split at h
  · next hle =>
    split at h
    · cases h
    · next b1 rest' =>
      obtain ⟨m, hm, rfl⟩ := Option.map_eq_some_iff.1 h
      obtain ⟨hb, hok⟩ := longByte_eq_of_partition b0 hacc hshort hle
      have hhigh : (b0.extractLsb' 0 6 ++ b1 : BitVec 14).extractLsb' 8 6 = b0.extractLsb' 0 6 :=
        extract_append_high _ b1
      have hlow : (b0.extractLsb' 0 6 ++ b1 : BitVec 14).extractLsb' 0 8 = b1 := extract_append_low _ b1
      have hp := PacketOf.long (cfg := cfg) (b0.extractLsb' 0 6 ++ b1) m
        (decide_eq_true (by rw [hhigh]; exact hok))
      rwa [hhigh, hlow, hb, ← eq_encodeBody_of_decodeBody hm] at hp
  · cases h

/-- A packet that decodes to more than itself is of a format (rule R297). -/
theorem decodeDcc_cases (cfg : Config) (pkt : List Byte) :
    PacketOf cfg pkt (decodeDcc cfg pkt) ∨ decodeDcc cfg pkt = .trigDccPacket pkt := by
  unfold decodeDcc packetRow
  split
  · exact .inr rfl
  · next hlen =>
    cases h : decodeFormat cfg pkt with
    | none => exact .inr rfl
    | some i =>
      have hmax : pkt.length ≤ 12 := Nat.le_of_not_lt fun hlt => hlen (.inr hlt)
      exact .inl (packetOf_of_decodeFormat hmax h)

/-! ### Recognised packets -/

theorem pktByte_append (head body : List Byte) (n : Nat) :
    pktByte (head ++ body) (head.length + n) = pktByte body n := by
  simp [pktByte, List.getElem?_append_right]

/-- A body is recognised after the address bytes `head` (rules R290 to R296). -/
theorem classifyMobile_ne_none (hm : cfg.markerOk) (form : AddrForm) (addr : BitVec 14) (head : List Byte)
    (m : MobileBody) : classifyMobile cfg form head.length addr (head ++ encodeBody cfg m) ≠ .none := by
  obtain ⟨hr, hb, hw, -⟩ := hm
  have h0 : pktByte (head ++ encodeBody cfg m) head.length = pktByte (encodeBody cfg m) 0 :=
    pktByte_append head (encodeBody cfg m) 0
  simp only [classifyMobile, h0]
  cases m with
  | pomRead | pomWrite | pomWriteBit => simp [encodeBody, pktByte, extract_append_high (m := 6) (n := 2)]
  | functionG1 => simp [encodeBody, pktByte, extract_append_high (m := 3) (n := 5)]
  | functionG2F5 | functionG2F9 =>
    simp [encodeBody, pktByte, extract_append_high (m := 4) (n := 4), extract_append_of_le (m := 4) (n := 4)]
  | extFunction => simp [encodeBody, pktByte]
  | dataSpaceRead => simp [encodeBody, pktByte, hr, hw, hb]

/-- A packet of a format is recognised (rules R280, R284). -/
theorem PacketOf.classify_ne_none (hm : cfg.markerOk) (h : PacketOf cfg pkt i) : classify cfg pkt ≠ .none := by
  obtain ⟨hmin, hmax⟩ := h.length
  have hlen : ¬ (pkt.length < 3 ∨ dccPktMax < pkt.length) := by
    show ¬ (pkt.length < 3 ∨ 12 < pkt.length)
    omega
  rw [classify, if_neg hlen]
  cases h with
  | logonEnable =>
    simp [pktByte, dccaAddr, classifyDcca, extract_append_high (m := 6) (n := 2)]
  | select mfg uid sub params e h =>
    obtain ⟨hne, -⟩ := identityByte_ne_logonEnable (mfg.extractLsb' 8 4)
    simp [pktByte, dccaAddr, classifyDcca, bytes32, hne, extract_append_high (m := 4) (n := 4)]
    rw [if_pos (show _ < 12 by omega)]
    exact Cmd.noConfusion
  | logonAssign mfg uid akind addr tail e h =>
    obtain ⟨-, hne⟩ := identityByte_ne_logonEnable (mfg.extractLsb' 8 4)
    simp [pktByte, dccaAddr, classifyDcca, bytes32, hne, extract_append_high (m := 4) (n := 4)]
    rw [if_pos (show _ < 12 by omega)]
    exact Cmd.noConfusion
  | getDataStart | getDataCont | setData | setDataEnd => simp [pktByte, dccaAddr, classifyDcca]
  | accessory a h c d e =>
    obtain ⟨hne, -, -, hlow, hhigh⟩ := accessoryFirstByte_partition a
    obtain ⟨h7, -⟩ := accessorySecondByte_fields h c d
    simp [pktByte, hne, hlow, hhigh, classifyAccessory, h7]
  | broadcast m =>
    have hmob := classifyMobile_ne_none hm .broadcast 0 [0x00] m
    simpa [pktByte, dccaAddr] using hmob
  | short a m ha =>
    obtain ⟨hdcca, -, hzero, -, hlow, hge, hle⟩ := shortByte_partition a ha
    have hacc : ¬ 0x80 ≤ (0#1 ++ a : Byte).toNat := by omega
    have hmob := classifyMobile_ne_none hm .short (shortAddress a) [0#1 ++ a] m
    simpa [pktByte, hdcca, hzero, hlow, hge, hle, hacc] using hmob
  | long a m ha =>
    obtain ⟨hdcca, -, hzero, -, hlow, hge, hle⟩ := longByte_partition (a.extractLsb' 8 6) (of_decide_eq_true ha)
    have hacc : ¬ (0b11#2 ++ a.extractLsb' 8 6 : Byte).toNat ≤ 0xBF := by omega
    have hshort : ¬ (0b11#2 ++ a.extractLsb' 8 6 : Byte).toNat ≤ 0x7F := by omega
    have hmob := classifyMobile_ne_none hm .long a [0b11#2 ++ a.extractLsb' 8 6, a.extractLsb' 0 8] m
    simpa [pktByte, hdcca, hzero, hlow, hge, hle, hacc, hshort, append_extract (m := 6) (n := 8)] using hmob

/-- A packet that classifies as none is of no format (rules R119, R297). -/
theorem decodeDcc_of_classify_none (hm : cfg.markerOk) (h : classify cfg pkt = .none) :
    decodeDcc cfg pkt = .trigDccPacket pkt := by
  rcases decodeDcc_cases cfg pkt with hrow | hraw
  · exact absurd h (hrow.classify_ne_none hm)
  · exact hraw

end Packets

section RoundTrip

variable {cfg : Config} {i : Instr}

/-! ### The host port -/

@[simp] theorem arg16_succ (b : Byte) (rest : List Byte) (n : Nat) : arg16 (b :: rest) (n + 1) = arg16 rest n := rfl

@[simp] theorem arg32_succ (b : Byte) (rest : List Byte) (n : Nat) : arg32 (b :: rest) (n + 1) = arg32 rest n := rfl

@[simp] theorem argBit_succ (b : Byte) (rest : List Byte) (n : Nat) : argBit (b :: rest) (n + 1) = argBit rest n := rfl

theorem arg16_bytes (v : BitVec 16) (rest : List Byte) :
    arg16 (v.extractLsb' 8 8 :: v.extractLsb' 0 8 :: rest) 0 = v :=
  bytes16_append v

theorem arg24_bytes (v : BitVec 24) (rest : List Byte) :
    arg24 (v.extractLsb' 16 8 :: v.extractLsb' 8 8 :: v.extractLsb' 0 8 :: rest) 0 = v :=
  bytes24_append v

theorem arg32_bytes (v : BitVec 32) (rest : List Byte) :
    arg32 (v.extractLsb' 24 8 :: v.extractLsb' 16 8 :: v.extractLsb' 8 8 :: v.extractLsb' 0 8 :: rest) 0 = v :=
  bytes32_append v

theorem argBit_byteBit (b : Bool) (rest : List Byte) : argBit (byteBit b :: rest) 0 = b :=
  byteBit_getLsbD b

/-- A counted list of up to 255 bytes is read back whole (rule R120). -/
theorem argBytes_counted (num : Byte) {data : List Byte} (h : data.length ≤ 255) :
    argBytes (num :: BitVec.ofNat 8 data.length :: data) 2 (BitVec.ofNat 8 data.length).toNat = data := by
  have hcount : (BitVec.ofNat 8 data.length).toNat = data.length := by
    rw [BitVec.toNat_ofNat]
    omega
  rw [hcount, argBytes_of_length]

/-! ### The receive line -/

/-- Bytes packed by the sender of kind `k` are read as the instruction their bits spell. -/
theorem decodeDatagram_encodeRaw (h : cfg.encOk) {k : Kind} {bits : List Bool}
    (hk : decodeKind cfg k (encodeRaw cfg bits) (bits ++ padding bits) = some i) :
    decodeDatagram cfg k (encodeRaw cfg bits) = i := by
  obtain ⟨symbols, hs, hu⟩ := dataSymbols_encodeRaw h bits
  rw [decodeDatagram, hs]
  show (decodeKind cfg k (encodeRaw cfg bits) (unpack symbols)).getD _ = i
  rw [hu, hk]
  rfl

/-- The ID-headed formats fill whole symbols, and the payload is the bits after the ID (rule R106). -/
theorem payloadOf_datagram (id : BitVec 4) {n : Nat} (p : BitVec n) :
    payloadOf id n (bitsOf 4 id.toNat ++ bitsOf n p.toNat) = some p.toNat := by
  have hid : (bitsOf 4 id.toNat ++ bitsOf n p.toNat).take 4 = bitsOf 4 id.toNat :=
    List.take_left' (length_bitsOf 4 _)
  have hp : (bitsOf 4 id.toNat ++ bitsOf n p.toNat).drop 4 = bitsOf n p.toNat := List.drop_left' (length_bitsOf 4 _)
  rw [payloadOf, hid, hp, bitsVal_bitsOf, bitsVal_bitsOf, Nat.mod_eq_of_lt id.isLt, Nat.mod_eq_of_lt p.isLt]
  simp

/-- A datagram with an ID, given what its kind makes of the payload (rules R104, R105). -/
theorem decode_encodeDatagram (h : cfg.encOk) {k : Kind} {id : BitVec 4} {n : Nat} {p : BitVec n}
    {mk : Nat → Instr} (h6 : (4 + n) % 6 = 0)
    (hk : ∀ bytes bits, decodeKind cfg k bytes bits = (payloadOf id n bits).map mk) (hmk : mk p.toNat = i) :
    decode cfg (.datagram k (encodeDatagram cfg id p.toNat n)) = .ok i := by
  have hpad : padding (bitsOf 4 id.toNat ++ bitsOf n p.toNat) = [] := by simp [padding, h6]
  refine congrArg Except.ok (decodeDatagram_encodeRaw h ?_)
  rw [hpad, List.append_nil, hk, payloadOf_datagram, Option.map_some, hmk]

/-- The bits of a service request are those of its two fields (rule R107). -/
theorem bitsOf_srq (ext : Bool) (address : BitVec 11) :
    ext :: bitsOf 11 address.toNat = bitsOf 12 (BitVec.ofBool ext ++ address).toNat := by
  rw [bitsOf_toNat_append (m := 1) (n := 11)]
  cases ext <;> rfl

theorem decodeDatagram_srq (h : cfg.encOk) (ext : Bool) (address : BitVec 11) :
    decodeDatagram cfg .srq (wireSrq cfg ext address) = .dgSrq ext address := by
  refine decodeDatagram_encodeRaw h ?_
  have hpad : padding (ext :: bitsOf 11 address.toNat) = [] := by simp [padding]
  have hlt : (BitVec.ofBool ext ++ address).toNat < 2 ^ 12 := (BitVec.ofBool ext ++ address).isLt
  have hext : (BitVec.ofBool ext ++ address).toNat.testBit 11 = ext := by
    rw [BitVec.testBit_toNat, BitVec.getLsbD_append]
    cases ext <;> rfl
  have haddr : payloadField (BitVec.ofBool ext ++ address).toNat 0 11 = address :=
    extract_append_low (BitVec.ofBool ext) address
  rw [hpad, List.append_nil, bitsOf_srq, decodeKind, length_bitsOf, bitsVal_bitsOf, Nat.mod_eq_of_lt hlt, hext, haddr]
  rfl

theorem decodeDatagram_dataSpace (h : cfg.encOk) {data : List Byte} (hlen : data.length ≤ 16) (crc : Byte) :
    decodeDatagram cfg .dataSpace (wireDataSpace cfg data crc) = .dgDataSpace data crc := by
  refine decodeDatagram_encodeRaw h ?_
  have hoct := octets_bitsOfBytes (dataSpaceBytes data crc)
    (Nat.lt_of_lt_of_le (length_padding_lt (bitsOfBytes (dataSpaceBytes data crc))) (by decide))
  rw [decodeKind, decodeDataSpace, hoct]
  simp [dataSpaceBytes, hlen, wireDataSpace]

theorem decode_datagram {k : Kind} {bytes : List Byte} (h : decodeDatagram cfg k bytes = i) :
    decode cfg (.datagram k bytes) = .ok i :=
  congrArg Except.ok h

theorem decode_packet (hm : cfg.markerOk) {pkt : List Byte} (h : PacketOf cfg pkt i) : decode cfg (.dcc pkt) = .ok i :=
  congrArg Except.ok (decodeDcc_of_packetOf hm h)

/-- The fields of an extended-POM payload (rule R105). -/
theorem xpom_fields (d0 d1 d2 d3 : Byte) :
    (d0 ++ d1 ++ d2 ++ d3 : Word32).extractLsb' 24 8 = d0 ∧ (d0 ++ d1 ++ d2 ++ d3 : Word32).extractLsb' 16 8 = d1 ∧
      (d0 ++ d1 ++ d2 ++ d3 : Word32).extractLsb' 8 8 = d2 ∧ (d0 ++ d1 ++ d2 ++ d3 : Word32).extractLsb' 0 8 = d3 := by
  simpa [bytes32] using bytes32_append_bytes d0 d1 d2 d3

/-- The fields of a DECODER_STATE payload (rule R105). -/
theorem decoderState_fields (flags : Byte) (count : BitVec 12) (caps : BitVec 16) (crc : Byte) :
    (flags ++ count ++ caps ++ crc : BitVec 44).extractLsb' 36 8 = flags ∧
      (flags ++ count ++ caps ++ crc : BitVec 44).extractLsb' 24 12 = count ∧
      (flags ++ count ++ caps ++ crc : BitVec 44).extractLsb' 8 16 = caps ∧
      (flags ++ count ++ caps ++ crc : BitVec 44).extractLsb' 0 8 = crc := by
  refine ⟨?_, ?_, ?_, extract_append_low (flags ++ count ++ caps) crc⟩
  · calc (flags ++ count ++ caps ++ crc).extractLsb' 36 8
      _ = (flags ++ count ++ caps).extractLsb' 28 8 := extract_append_of_le _ crc 36 8 (by decide)
      _ = (flags ++ count).extractLsb' 12 8 := extract_append_of_le _ caps 28 8 (by decide)
      _ = flags := extract_append_high flags count
  · calc (flags ++ count ++ caps ++ crc).extractLsb' 24 12
      _ = (flags ++ count ++ caps).extractLsb' 16 12 := extract_append_of_le _ crc 24 12 (by decide)
      _ = (flags ++ count).extractLsb' 0 12 := extract_append_of_le _ caps 16 12 (by decide)
      _ = count := extract_append_low flags count
  · calc (flags ++ count ++ caps ++ crc).extractLsb' 8 16
      _ = (flags ++ count ++ caps).extractLsb' 0 16 := extract_append_of_le _ crc 8 16 (by decide)
      _ = caps := extract_append_low (flags ++ count) caps

/-- The fields of a TIME payload (rule R105). -/
theorem time_fields (unit : Bool) (value : BitVec 7) :
    (BitVec.ofBool unit ++ value : Byte).toNat.testBit 7 = unit ∧
      (BitVec.ofBool unit ++ value : Byte).extractLsb' 0 7 = value := by
  refine ⟨?_, extract_append_low (BitVec.ofBool unit) value⟩
  revert unit value
  decide

/-- Each instruction at its port: packets by their format, arguments by their bytes, datagrams by their bits. -/
theorem decode_encode (hc : cfg.ok) (hwf : i.wf = true)
    (hraw : ∀ pkt, i = .trigDccPacket pkt → classify cfg pkt = .none) :
    decode cfg (encode cfg i) = .ok i := by
  obtain ⟨henc, -, -, -, -, -, -, hm, -⟩ := hc
  cases i with
  | dccLogonEnable => exact decode_packet hm (.logonEnable _ _ _ _)
  | dccSelect => exact decode_packet hm (.select _ _ _ _ _ (of_decide_eq_true hwf))
  | dccLogonAssign => exact decode_packet hm (.logonAssign _ _ _ _ _ _ (of_decide_eq_true hwf))
  | dccSetData => exact decode_packet hm (.setData _ _ (of_decide_eq_true hwf))
  | dccSetDataEnd => exact decode_packet hm (.setDataEnd _ _ (of_decide_eq_true hwf))
  | dccAccessory => exact decode_packet hm (.accessory _ _ _ _ _)
  | dccPomReadBroadcast | dccPomWriteBroadcast | dccPomWriteBitBroadcast | dccFunctionG1Broadcast
  | dccFunctionG2F5Broadcast | dccFunctionG2F9Broadcast | dccExtFunctionBroadcast | dccDataSpaceReadBroadcast =>
    exact decode_packet hm (.broadcast _)
  | dccPomReadShort | dccPomWriteShort | dccPomWriteBitShort | dccFunctionG1Short
  | dccFunctionG2F5Short | dccFunctionG2F9Short | dccExtFunctionShort | dccDataSpaceReadShort =>
    exact decode_packet hm (.short _ _ hwf)
  | dccPomReadLong | dccPomWriteLong | dccPomWriteBitLong | dccFunctionG1Long
  | dccFunctionG2F5Long | dccFunctionG2F9Long | dccExtFunctionLong | dccDataSpaceReadLong =>
    exact decode_packet hm (.long _ _ hwf)
  | trigDccPacket pkt => exact congrArg Except.ok (decodeDcc_of_classify_none hm (hraw pkt rfl))
  | symData v =>
    refine congrArg Except.ok ?_
    rw [decodeSymbol, encode4of8_eq_sym, decode4of8_sym henc]
  | dgSrq => exact decode_datagram (decodeDatagram_srq henc _ _)
  | dgDataSpace => exact decode_datagram (decodeDatagram_dataSpace henc (of_decide_eq_true hwf) _)
  | dccGetDataStart | dccGetDataCont | symAck1 | symAck2 | symNack
  | opReset | opTxBegin | opTxEnd | opRxBegin | opRxEnd | opCvAutoTick | opSecondTick
  | opSendPom | opSendXpom | opSendStatus1 | opSendStatus2 | opSendStatus4 | opSendError | opSendDrivingInfo
  | opSendBasicInfo | opSetExtInfo | opCvClear | opDsClear | opLogonReset | opRxExpectDataSpace | opRxCacheTimeout
  | trigCutoutStart => rfl
  | opSendDataSpace num data =>
    exact congrArg (fun d => Except.ok (Instr.opSendDataSpace num d)) (argBytes_counted num (of_decide_eq_true hwf))
  | opDsSet num data =>
    exact congrArg (fun d => Except.ok (Instr.opDsSet num d)) (argBytes_counted num (of_decide_eq_true hwf))
  | opSendAddress | opSendDynamic | opSendTime | opSendCvAuto | opSendDecoderUnique | opSendDecoderState | opSendRerail
  | opSendServiceRequest | opSendExt | opSendBlock | opSetAddress | opSetIdentity | opSetClass | opSetExtInfoEnabled
  | opSetExtPosition | opSetDecoderStateFields | opCvSet | opRxSetContext | opRxRead =>
    refine congrArg Except.ok ?_
    simp [bytes16, bytes24, bytes32, arg16_bytes, arg24_bytes, arg32_bytes, argBit_byteBit]
  | dgPom | dgAdrHigh | dgAdrLow | dgStat4 | dgDrivingInfo | dgBasicInfo | dgStat1 | dgError | dgStat2 | dgRerail
  | dgBlock =>
    exact decode_encodeDatagram henc rfl (fun _ _ => rfl) (congrArg _ BitVec.extractLsb'_eq_self)
  | dgExt type position =>
    exact decode_encodeDatagram henc rfl (fun _ _ => rfl)
      (congrArg₂ Instr.dgExt (extract_append_high type position) (extract_append_low type position))
  | dgDyn value subindex =>
    exact decode_encodeDatagram henc rfl (fun _ _ => rfl)
      (congrArg₂ Instr.dgDyn (extract_append_high value subindex) (extract_append_low value subindex))
  | dgCvAuto cv value =>
    exact decode_encodeDatagram henc rfl (fun _ _ => rfl)
      (congrArg₂ Instr.dgCvAuto (extract_append_high cv value) (extract_append_low cv value))
  | dgDecoderUnique mfg product =>
    exact decode_encodeDatagram henc rfl (fun _ _ => rfl)
      (congrArg₂ Instr.dgDecoderUnique (extract_append_high mfg product) (extract_append_low mfg product))
  | dgTime unit value =>
    obtain ⟨hunit, hvalue⟩ := time_fields unit value
    exact decode_encodeDatagram henc rfl (fun _ _ => rfl) (congrArg₂ Instr.dgTime hunit hvalue)
  | dgXpom0 d0 d1 d2 d3 | dgXpom1 d0 d1 d2 d3 | dgXpom2 d0 d1 d2 d3 | dgXpom3 d0 d1 d2 d3 =>
    obtain ⟨h0, h1, h2, h3⟩ := xpom_fields d0 d1 d2 d3
    refine decode_encodeDatagram henc rfl (fun _ _ => rfl) ?_
    simp only [payloadField_toNat, h0, h1, h2, h3]
  | dgDecoderState flags count caps crc =>
    obtain ⟨hf, hn, hc, hcrc⟩ := decoderState_fields flags count caps crc
    refine decode_encodeDatagram henc rfl (fun _ _ => rfl) ?_
    simp only [payloadField_toNat, hf, hn, hc, hcrc]

end RoundTrip

/-! ### The obligations -/

/-- Settles O1: the decoder is run on each word. -/
theorem decodeReadsSpecWords : Obligations.DecodeReadsSpecWords :=
  ⟨rfl, rfl, rfl, rfl, rfl, rfl, rfl, rfl, rfl⟩

/-- Settles O6: each instruction at its port, the raw packet by exclusion of the formats. -/
theorem decodeInvertsEncode : Obligations.DecodeInvertsEncode :=
  fun _ _ hc hwf hraw => decode_encode hc hwf hraw

/-- Settles O7: the packet is of a format, whose fields hold all its bits, or decodes to itself. -/
theorem encodeInvertsPacketDecode : Obligations.EncodeInvertsPacketDecode := by
  intro cfg pkt
  rcases decodeDcc_cases cfg pkt with hrow | hraw
  · exact hrow.encode_eq
  · rw [hraw]
    rfl

/-- Settles O12: the assigned bytes are counted, and the unassigned ones are the rest. -/
theorem unassignedSymbols : Obligations.UnassignedSymbols := by
  refine ⟨fun cfg h => ⟨?_, ?_, ?_⟩, default_unassigned⟩
  · exact (countP_range_ofNat fun b => weight b == 4).trans countP_weight_four
  · exact (countP_range_ofNat fun b => weight b == 4 && decode4of8 cfg b == .invalid).trans (countP_unassigned h)
  · exact (countP_range_ofNat fun b => weight b != 4 && decode4of8 cfg b == .invalid).trans (countP_other_weight h)

/-- Settles O14: the payload is packed six bits at a time, after the ID and its two highest bits. -/
theorem datagramBitLayout : Obligations.DatagramBitLayout :=
  ⟨encodeDatagram_eq_dg12, encodeDatagram_eq_dg18, encodeDatagram_eq_dg36, encodeDatagram_eq_dg48⟩

end Sys2Proof.Encoding

/-! PROOFS. The datagram and symbol rows (rules R186, R191, R195, R207, R209, R210): each is the read of its bytes, and
this is what the receiver makes of them. -/

namespace Sys2Proof.Line

open Sys2Proof.Machine Sys2Proof.Claims Sys2Proof.Memory Sys2Proof.Encoding Sys2Proof.Invariant

section Lemmas

variable {cfg : Config} {r : Receiver} {s : State} {i : Instr}

/-! ### Rows and reads -/

/-- The bits of a value are those of its high field and of its low field. -/
theorem bitsOf_split {m n : Nat} (x : BitVec (m + n)) :
    bitsOf (m + n) x.toNat = bitsOf m (x.extractLsb' n m).toNat ++ bitsOf n (x.extractLsb' 0 n).toNat := by
  rw [← bitsOf_toNat_append, append_extract]

/-- A service request is packed as two symbols (rule R107). -/
theorem wireSrq_eq (cfg : Config) (ext : Bool) (address : BitVec 11) :
    wireSrq cfg ext address =
      [sym cfg (BitVec.ofBool ext ++ address.extractLsb' 6 5), sym cfg (address.extractLsb' 0 6)] := by
  have hbits : ext :: bitsOf 11 address.toNat =
      bitsOf 6 (BitVec.ofBool ext ++ address.extractLsb' 6 5).toNat ++
        (bitsOf 6 (address.extractLsb' 0 6).toNat ++ []) := by
    rw [bitsOf_split (m := 5) (n := 6) address, bitsOf_toNat_append (m := 1) (n := 5), List.append_nil]
    cases ext <;> rfl
  rw [wireSrq, encodeServiceRequest, hbits, encodeRaw_symbol, encodeRaw_symbol]
  rfl

/-- A row on the receive line is the read of the bytes the statements give it (log entry 1). -/
theorem exec_of_lineBytes {bytes : List Byte} (h : lineBytes s.cfg i = some bytes) : exec i s = readLine bytes s := by
  cases i with
  | dgPom | dgAdrHigh | dgAdrLow | dgStat4 | dgDrivingInfo | dgBasicInfo | dgStat1 | dgTime | dgError | dgStat2
  | dgRerail =>
    cases h
    exact congrArg (readLine · s) (encodeDatagram_eq_dg12 _ _ _)
  | dgExt | dgDyn =>
    cases h
    exact congrArg (readLine · s) (encodeDatagram_eq_dg18 _ _ _)
  | dgXpom0 | dgXpom1 | dgXpom2 | dgXpom3 | dgCvAuto | dgBlock =>
    cases h
    exact congrArg (readLine · s) (encodeDatagram_eq_dg36 _ _ _)
  | dgDecoderState | dgDecoderUnique =>
    cases h
    exact congrArg (readLine · s) (encodeDatagram_eq_dg48 _ _ _)
  | dgSrq ext address =>
    cases h
    exact congrArg (readLine · s) (wireSrq_eq _ ext address)
  | dgDataSpace | symAck1 | symAck2 | symNack =>
    cases h
    rfl
  | symData v =>
    cases h
    exact congrArg (fun b => readLine [b] s) (encode4of8_eq_sym _ _)
  | _ => cases h

theorem readLine_eq_readGives (bytes : List Byte) (s : State) :
    readLine bytes s = readGives s (rxRead s.cfg bytes s.rcv).1 (rxRead s.cfg bytes s.rcv).2 (readCalls bytes) := by
  rw [readLine, pollCalls_roundOf]
  rfl

theorem lineGives_of_rxRead {bytes : List Byte} {ms : List Msg} (hline : lineBytes s.cfg i = some bytes)
    (hread : rxRead s.cfg bytes s.rcv = (r, ms)) : LineGives s i r ms :=
  ⟨bytes, hline, by rw [exec_of_lineBytes hline, readLine_eq_readGives, hread]⟩

theorem readGives_rxRead (bytes : List Byte) (s : State) :
    ReadGives s bytes (rxRead s.cfg bytes s.rcv).1 (rxRead s.cfg bytes s.rcv).2 := by
  rintro timeout line rfl
  rfl

/-! ### The accumulator, symbol by symbol -/

theorem rxRead_of_not_expecting (h : r.rxExpectDs = false) (bytes : List Byte) :
    rxRead cfg bytes r = rxSteps cfg bytes r := by
  rw [rxRead, h]
  rfl

/-- The receiver with `bits` added to its accumulator. -/
def accumulate (r : Receiver) (bits : List Bool) : Receiver := { r with rxAcc := r.rxAcc ++ bits }

@[simp] theorem accumulate_rxState (bits : List Bool) : (accumulate r bits).rxState = r.rxState := rfl
@[simp] theorem accumulate_rxContext (bits : List Bool) : (accumulate r bits).rxContext = r.rxContext := rfl
@[simp] theorem accumulate_rxTotal (bits : List Bool) : (accumulate r bits).rxTotal = r.rxTotal := rfl
@[simp] theorem accumulate_rxAcc (bits : List Bool) : (accumulate r bits).rxAcc = r.rxAcc ++ bits := rfl

theorem accumulate_accumulate (a b : List Bool) : accumulate (accumulate r a) b = accumulate r (a ++ b) := by
  simp [accumulate]

/-- The rest of a read after one byte step: the step's message stands first (rule R207). -/
def rxAfter (cfg : Config) (bytes : List Byte) (step : Receiver × Option Msg) : Receiver × List Msg :=
  ((rxSteps cfg bytes step.1).1, step.2.toList ++ (rxSteps cfg bytes step.1).2)

theorem rxSteps_cons (cfg : Config) (b : Byte) (rest : List Byte) (r : Receiver) :
    rxSteps cfg (b :: rest) r = rxAfter cfg rest (rxStep cfg b r) :=
  rfl

theorem rxAfter_none (cfg : Config) (bytes : List Byte) (r : Receiver) :
    rxAfter cfg bytes (r, none) = rxSteps cfg bytes r :=
  rfl

theorem rxStep_of_data {b : Byte} {v : BitVec 6} (h : decode4of8 cfg b = .data v) (r : Receiver) :
    rxStep cfg b r = rxExamine (accumulate r (bitsOf 6 v.toNat)) := by
  rw [rxStep, h]
  rfl

/-- The first byte of a string of data symbols, and the others. -/
theorem dataSymbols_eq_cons {bytes : List Byte} {v : BitVec 6} {vs : List (BitVec 6)}
    (h : dataSymbols cfg bytes = some (v :: vs)) :
    ∃ b rest, bytes = b :: rest ∧ decode4of8 cfg b = .data v ∧ dataSymbols cfg rest = some vs := by
  cases bytes with
  | nil => cases h
  | cons b rest =>
    rw [dataSymbols] at h
    split at h
    · next w hw =>
      obtain ⟨ws, hws, e⟩ := Option.map_eq_some_iff.1 h
      cases e
      exact ⟨b, rest, rfl, hw, hws⟩
    · cases h

theorem dataSymbols_eq_nil {bytes : List Byte} (h : dataSymbols cfg bytes = some []) : bytes = [] := by
  cases bytes with
  | nil => rfl
  | cons b rest =>
    rw [dataSymbols] at h
    split at h
    · obtain ⟨ws, -, e⟩ := Option.map_eq_some_iff.1 h
      cases e
    · cases h

theorem unpack_cons (v : BitVec 6) (vs : List (BitVec 6)) : unpack (v :: vs) = bitsOf 6 v.toNat ++ unpack vs := by
  simp [unpack]

theorem rxDeliver_of_idle (h : r.rxState = .idle) : rxDeliver r = (r, none) :=
  if_neg (by simp [h])

theorem rxDeliver_of_short (h : r.rxAcc.length < r.rxTotal.toNat) : rxDeliver r = (r, none) :=
  if_neg (by omega)

theorem rxExamine_of_reading (h : r.rxState = .reading) : rxExamine r = rxDeliver r :=
  if_neg (by simp [h])

/-- Fewer than 8 bits wait for the next symbol (rule R186). -/
theorem rxExamine_of_few (hst : r.rxState = .idle) (h : r.rxAcc.length < 8) : rxExamine r = (r, none) :=
  (if_neg (by omega)).trans (rxDeliver_of_idle hst)

/-- An ID that is unknown in the context empties the accumulator (rule R183). -/
theorem rxExamine_of_unknown (hst : r.rxState = .idle) (h : 8 ≤ r.rxAcc.length)
    (hexp : expectedBits (rxId r.rxAcc) r.rxContext = 0) : rxExamine r = (rxClear r, none) :=
  (if_pos ⟨hst, h⟩).trans (if_pos hexp)

/-- A known ID fixes the total length (rules R183, R186). -/
theorem rxExamine_of_known {n : Nat} (hst : r.rxState = .idle) (h : 8 ≤ r.rxAcc.length)
    (hexp : expectedBits (rxId r.rxAcc) r.rxContext = n) (hn : n ≠ 0) :
    rxExamine r = rxDeliver (partway r (BitVec.ofNat 6 (4 + n)) r.rxAcc) := by
  subst hexp
  exact (if_pos ⟨hst, h⟩).trans (if_neg hn)

/-- The symbols that follow are accumulated, and only the last can complete the datagram (rule R186). -/
theorem rxAfter_reading {bytes : List Byte} {symbols : List (BitVec 6)} (h : dataSymbols cfg bytes = some symbols)
    (hst : r.rxState = .reading) (hle : r.rxAcc.length + (unpack symbols).length ≤ r.rxTotal.toNat) :
    rxAfter cfg bytes (rxDeliver r) = rxAfter cfg [] (rxDeliver (accumulate r (unpack symbols))) := by
  induction symbols generalizing r bytes with
  | nil =>
    rw [dataSymbols_eq_nil h]
    simp [unpack, accumulate]
  | cons v vs ih =>
    obtain ⟨b, rest, rfl, hb, hrest⟩ := dataSymbols_eq_cons h
    rw [unpack_cons, List.length_append, length_bitsOf] at hle
    rw [rxDeliver_of_short (by omega), rxAfter_none, rxSteps_cons, rxStep_of_data hb,
      rxExamine_of_reading (r := accumulate r _) hst, ih (r := accumulate r _) hrest hst, accumulate_accumulate,
      ← unpack_cons]
    simp only [accumulate_rxAcc, accumulate_rxTotal, List.length_append, length_bitsOf]
    omega

/-- The first two symbols of an empty receiver: the second is the first to be examined (rule R186). -/
theorem rxSteps_two (hst : r.rxState = .idle) (hacc : r.rxAcc = []) {b1 b2 : Byte} {v1 v2 : BitVec 6}
    (h1 : decode4of8 cfg b1 = .data v1) (h2 : decode4of8 cfg b2 = .data v2) (rest : List Byte) :
    rxSteps cfg (b1 :: b2 :: rest) r =
      rxAfter cfg rest (rxExamine (accumulate r (bitsOf 6 v1.toNat ++ bitsOf 6 v2.toNat))) := by
  rw [rxSteps_cons, rxStep_of_data h1, rxExamine_of_few (r := accumulate r _) hst (by simp [hacc]), rxAfter_none,
    rxSteps_cons, rxStep_of_data h2, accumulate_accumulate]

/-- Clearing what an empty receiver has accumulated gives the empty receiver. -/
theorem rxClear_accumulate (hst : r.rxState = .idle) (hacc : r.rxAcc = []) (bits : List Bool) :
    rxClear (accumulate r bits) = r := by
  cases r
  simp_all [rxClear, accumulate]

theorem rxClear_partway (hst : r.rxState = .idle) (hacc : r.rxAcc = []) (total : BitVec 6) (bits : List Bool) :
    rxClear (partway r total bits) = { r with rxTotal := total } := by
  cases r
  simp_all [rxClear, partway]

/-- An empty receiver that has read at most one whole datagram (rules R183, R186). -/
theorem rxSteps_encodeRaw (henc : cfg.encOk) (hst : r.rxState = .idle) (hacc : r.rxAcc = []) {bits : List Bool}
    {n : Nat} (h6 : bits.length % 6 = 0) (h12 : 12 ≤ bits.length) (hle : bits.length ≤ 4 + n)
    (hexp : expectedBits (rxId bits) r.rxContext = n) :
    rxSteps cfg (encodeRaw cfg bits) r = rxAfter cfg [] (rxDeliver (partway r (BitVec.ofNat 6 (4 + n)) bits)) := by
  have htotal : (BitVec.ofNat 6 (4 + n)).toNat = 4 + n := by rw [← hexp, toNat_rxTotal]
  obtain ⟨symbols, hsym, rfl⟩ := dataSymbols_encodeRaw_whole henc h6
  match symbols with
  | [] | [_] => simp at h12
  | v1 :: v2 :: rest =>
    obtain ⟨b1, bytes1, hbytes, hb1, hsym1⟩ := dataSymbols_eq_cons hsym
    obtain ⟨b2, bytes2, rfl, hb2, hsym2⟩ := dataSymbols_eq_cons hsym1
    have hunpack : unpack (v1 :: v2 :: rest) = (bitsOf 6 v1.toNat ++ bitsOf 6 v2.toNat) ++ unpack rest := by
      simp [unpack_cons]
    have hlen : (bitsOf 6 v1.toNat ++ bitsOf 6 v2.toNat).length = 12 := by simp
    rw [hbytes, rxSteps_two hst hacc hb1 hb2, hunpack]
    rw [hunpack, List.length_append, hlen] at hle
    rw [hunpack, rxId_append (by omega)] at hexp
    generalize bitsOf 6 v1.toNat ++ bitsOf 6 v2.toNat = head at hlen hexp
    have hstart : rxExamine (accumulate r head) = rxDeliver (partway r (BitVec.ofNat 6 (4 + n)) head) := by
      rw [rxExamine_of_known (n := n) (r := accumulate r head) hst (by simp; omega) (by simpa [hacc] using hexp)
        (by omega)]
      simp [partway, accumulate, hacc]
    rw [hstart, rxAfter_reading hsym2 rfl]
    · rfl
    · simp only [partway, htotal]
      omega

/-- An ID that is unknown in the context leaves an empty receiver as it was (rule R183). -/
theorem rxSteps_encodeRaw_unknown (henc : cfg.encOk) (hst : r.rxState = .idle) (hacc : r.rxAcc = []) {bits : List Bool}
    (h12 : bits.length = 12) (hexp : expectedBits (rxId bits) r.rxContext = 0) :
    rxSteps cfg (encodeRaw cfg bits) r = (r, []) := by
  obtain ⟨symbols, hsym, rfl⟩ := dataSymbols_encodeRaw_whole henc (bits := bits) (by omega)
  match symbols with
  | [] | [_] => simp at h12
  | _ :: _ :: _ :: _ =>
    simp only [length_unpack, List.length_cons] at h12
    omega
  | [v1, v2] =>
    obtain ⟨b1, bytes1, hbytes, hb1, hsym1⟩ := dataSymbols_eq_cons hsym
    obtain ⟨b2, bytes2, rfl, hb2, hsym2⟩ := dataSymbols_eq_cons hsym1
    rw [hbytes, dataSymbols_eq_nil hsym2, rxSteps_two hst hacc hb1 hb2,
      rxExamine_of_unknown (r := accumulate r _) hst (by simp) (by simpa [hacc, unpack] using hexp),
      rxClear_accumulate hst hacc]
    rfl

/-- The candidate ID of a datagram's bits is its ID (rule R186). -/
theorem rxId_datagram (id : BitVec 4) (bits : List Bool) : rxId (bitsOf 4 id.toNat ++ bits) = id := by
  simp [rxId, Nat.mod_eq_of_lt id.isLt]

/-- A whole datagram that resolves is delivered and clears the accumulator (rules R184, R186). -/
theorem rxDeliver_datagram {id : BitVec 4} {n : Nat} {p : BitVec n} {k : Kind} {m : Msg} (hst : r.rxState = .reading)
    (htotal : r.rxTotal.toNat = 4 + n) (hacc : r.rxAcc = bitsOf 4 id.toNat ++ bitsOf n p.toNat)
    (hres : resolve id (4 + n) r.rxContext = some k) (hm : construct k p.toNat r.rxAcc r.rxAdrHigh = some m) :
    rxDeliver r = ({ rxClear r with rxAdrHigh := cacheAfter k p.toNat }, some m) := by
  have hid : rxId r.rxAcc = id := by rw [hacc, rxId_datagram]
  have hp : rxPayload r.rxAcc (4 + n) = p.toNat := by
    simp [rxPayload, hacc, List.take_of_length_le, Nat.mod_eq_of_lt p.isLt]
  rw [rxDeliver, if_pos ⟨hst, by simp [hacc, htotal]⟩]
  simp only [htotal, hid, hp, hres, hm]

/-! ### Datagrams from a waiting receiver -/

/-- A whole datagram of a known ID (rules R183, R184, R186). -/
theorem rxRead_datagram (henc : cfg.encOk) (hw : Waiting r) {id : BitVec 4} {n : Nat} {p : BitVec n} {k : Kind}
    {m : Msg} (h6 : (4 + n) % 6 = 0) (h8 : 8 ≤ n) (hexp : expectedBits id r.rxContext = n)
    (hres : resolve id (4 + n) r.rxContext = some k)
    (hm : construct k p.toNat (bitsOf 4 id.toNat ++ bitsOf n p.toNat) r.rxAdrHigh = some m) :
    rxRead cfg (encodeDatagram cfg id p.toNat n) r =
      ({ r with rxTotal := BitVec.ofNat 6 (4 + n), rxAdrHigh := cacheAfter k p.toNat }, [m]) := by
  obtain ⟨hst, hacc, hds⟩ := hw
  have htotal : (BitVec.ofNat 6 (4 + n)).toNat = 4 + n := by rw [← hexp, toNat_rxTotal]
  rw [rxRead_of_not_expecting hds, encodeDatagram,
    rxSteps_encodeRaw henc hst hacc (n := n) (by simpa using h6) (by simp; omega) (by simp)
      (by rw [rxId_datagram, hexp]),
    rxDeliver_datagram (r := partway r (BitVec.ofNat 6 (4 + n)) _) rfl htotal rfl hres hm, rxClear_partway hst hacc]
  rfl

/-- An ID and a payload as one number (rule R106). -/
theorem bitsOf_header (id : BitVec 4) {w : Nat} (p : BitVec w) :
    bitsOf 4 id.toNat ++ bitsOf w p.toNat = bitsOf (4 + w) (id.toNat * 2 ^ w + p.toNat) := by
  have hval := bitsOf_bitsVal (bitsOf 4 id.toNat ++ bitsOf w p.toNat)
  rw [bitsVal_append, bitsVal_bitsOf, bitsVal_bitsOf, Nat.mod_eq_of_lt id.isLt, Nat.mod_eq_of_lt p.isLt,
    List.length_append, length_bitsOf, length_bitsOf] at hval
  exact hval.symm

/-- A shorter datagram of a known ID is half-read (rule R186). -/
theorem rxRead_partway (henc : cfg.encOk) (hw : Waiting r) {id : BitVec 4} {w n : Nat} {p : BitVec w}
    (h6 : (4 + w) % 6 = 0) (h8 : 8 ≤ w) (hexp : expectedBits id r.rxContext = n) (hlt : w < n) :
    rxRead cfg (encodeDatagram cfg id p.toNat w) r =
      (partway r (BitVec.ofNat 6 (4 + n)) (bitsOf (4 + w) (id.toNat * 2 ^ w + p.toNat)), []) := by
  obtain ⟨hst, hacc, hds⟩ := hw
  have htotal : (BitVec.ofNat 6 (4 + n)).toNat = 4 + n := by rw [← hexp, toNat_rxTotal]
  rw [rxRead_of_not_expecting hds, encodeDatagram,
    rxSteps_encodeRaw henc hst hacc (n := n) (by simpa using h6) (by simp; omega) (by simp; omega)
      (by rw [rxId_datagram, hexp]), bitsOf_header,
    rxDeliver_of_short (by simp only [partway, length_bitsOf, htotal]; omega)]
  rfl

/-- A table row of rule R183 that no context changes. -/
theorem expectedBits_any {id : BitVec 4} {n : Nat} (hmobile : expectedBits id .mobile = n)
    (hstationary : expectedBits id .stationary = n) (hunknown : expectedBits id .unknown = n) (ctx : RxContext) :
    expectedBits id ctx = n := by
  cases ctx <;> assumption

/-- A row of a whole datagram, whose kind and message are given. -/
theorem lineGives_datagram (henc : s.cfg.encOk) (hw : Waiting s.rcv) (id : BitVec 4) (k : Kind) {bytes : List Byte}
    {n : Nat} {p : BitVec n} {m : Msg} (hline : lineBytes s.cfg i = some bytes)
    (hbytes : encodeDatagram s.cfg id p.toNat n = bytes) (h6 : (4 + n) % 6 = 0) (h8 : 8 ≤ n)
    (hexp : expectedBits id s.rcv.rxContext = n) (hres : resolve id (4 + n) s.rcv.rxContext = some k)
    (hm : construct k p.toNat (bitsOf 4 id.toNat ++ bitsOf n p.toNat) s.rcv.rxAdrHigh = some m) :
    LineGives s i { s.rcv with rxTotal := BitVec.ofNat 6 (4 + n), rxAdrHigh := cacheAfter k p.toNat } [m] :=
  lineGives_of_rxRead hline (by rw [← hbytes, rxRead_datagram henc hw h6 h8 hexp hres hm])

/-- A row of one byte, delivered as `mk` of it. -/
theorem lineGives_byte (henc : s.cfg.encOk) (hw : Waiting s.rcv) (id : BitVec 4) (k : Kind) (mk : Byte → Msg) {v : Byte}
    (hline : lineBytes s.cfg i = some (dg12 s.cfg id v)) (hexp : expectedBits id s.rcv.rxContext = 8)
    (hres : resolve id 12 s.rcv.rxContext = some k)
    (hmk : ∀ frame, construct k v.toNat frame s.rcv.rxAdrHigh = some (mk (v.extractLsb' 0 8))) :
    LineGives s i { s.rcv with rxTotal := 12, rxAdrHigh := cacheAfter k v.toNat } [mk v] := by
  refine lineGives_datagram henc hw id k hline (encodeDatagram_eq_dg12 _ _ _) rfl (by decide) hexp hres ?_
  rw [hmk, BitVec.extractLsb'_eq_self]

/-- A row of one byte that is half of a longer datagram. -/
theorem lineGives_partway (henc : s.cfg.encOk) (hw : Waiting s.rcv) (id : BitVec 4) {bytes : List Byte} {w n : Nat}
    {p : BitVec w} (hline : lineBytes s.cfg i = some bytes)
    (hbytes : encodeDatagram s.cfg id p.toNat w = bytes) (h6 : (4 + w) % 6 = 0) (h8 : 8 ≤ w)
    (hexp : expectedBits id s.rcv.rxContext = n) (hlt : w < n) :
    LineGives s i (partway s.rcv (BitVec.ofNat 6 (4 + n)) (bitsOf (4 + w) (id.toNat * 2 ^ w + p.toNat))) [] :=
  lineGives_of_rxRead hline (by rw [← hbytes, rxRead_partway henc hw h6 h8 hexp hlt])

/-- A row of one byte under an ID the context does not know (rule R183). -/
theorem lineGives_unknown (henc : s.cfg.encOk) (hw : Waiting s.rcv) (id : BitVec 4) {v : Byte}
    (hline : lineBytes s.cfg i = some (dg12 s.cfg id v)) (hexp : expectedBits id s.rcv.rxContext = 0) :
    LineGives s i s.rcv [] := by
  obtain ⟨hst, hacc, hds⟩ := hw
  refine lineGives_of_rxRead hline ?_
  rw [rxRead_of_not_expecting hds, ← encodeDatagram_eq_dg12, encodeDatagram]
  exact rxSteps_encodeRaw_unknown henc hst hacc (by simp) (by rw [rxId_datagram, hexp])

/-- A table row of rule R183 outside the mobile context. -/
theorem expectedBits_stationary {id : BitVec 4} {n : Nat} {ctx : RxContext} (hctx : ctx ≠ .mobile)
    (hstationary : expectedBits id .stationary = n) (hunknown : expectedBits id .unknown = n) :
    expectedBits id ctx = n := by
  cases ctx with
  | mobile => exact absurd rfl hctx
  | stationary => exact hstationary
  | unknown => exact hunknown

/-! ### Rows that begin with the symbols of another -/

/-- A field that lies across the two parts. -/
theorem extract_append_across {m n : Nat} (x : BitVec m) (y : BitVec n) (lo a b : Nat) (h : lo + b = n) :
    (x ++ y).extractLsb' lo (a + b) = x.extractLsb' 0 a ++ y.extractLsb' lo b := by
  ext i hi
  simp only [BitVec.getElem_append, BitVec.getElem_extractLsb', BitVec.getLsbD_append]
  by_cases hlow : i < b
  · rw [dif_pos hlow, if_pos (by omega)]
  · rw [dif_neg hlow, if_neg (by omega)]
    congr 1
    omega

/-- The first two symbols of an EXT are a datagram of 12 bits (rule R106). -/
theorem dg18_eq_dg12 (cfg : Config) (id : BitVec 4) (t : BitVec 6) (p : Byte) :
    dg18 cfg id (t ++ p) = dg12 cfg id (t ++ p.extractLsb' 6 2) ++ [sym cfg (p.extractLsb' 0 6)] := by
  have hmid : (t ++ p : BitVec 14).extractLsb' 6 8 = t ++ p.extractLsb' 6 2 := by
    simpa using extract_append_across t p 6 6 2 rfl
  have hsplit : (t ++ p : BitVec 14).extractLsb' 12 2 ++ (t ++ p : BitVec 14).extractLsb' 6 6 =
      t ++ p.extractLsb' 6 2 :=
    (extract_append_extract (m := 2) (n := 6) (t ++ p) 6).trans hmid
  have hlow : (t ++ p : BitVec 14).extractLsb' 0 6 = p.extractLsb' 0 6 := extract_append_of_lt t p 0 6 (by decide)
  rw [dg18, dg12, ← hsplit, extract_append_high (m := 2) (n := 6), extract_append_low (m := 2) (n := 6), hlow]
  rfl

/-- The bits of a datagram of 12 bits are packed as its two symbols, whatever follows (rules R106, R165). -/
theorem encodeRaw_dg12_append (cfg : Config) (id : BitVec 4) (p : Byte) (rest : List Bool) :
    encodeRaw cfg (bitsOf 4 id.toNat ++ (bitsOf 8 p.toNat ++ rest)) = dg12 cfg id p ++ encodeRaw cfg rest := by
  have hbits : bitsOf 4 id.toNat ++ (bitsOf 8 p.toNat ++ rest) =
      bitsOf 6 (id ++ p.extractLsb' 6 2).toNat ++ (bitsOf 6 (p.extractLsb' 0 6).toNat ++ rest) := by
    rw [bitsOf_split (m := 2) (n := 6) p, bitsOf_toNat_append (m := 4) (n := 2)]
    simp
  rw [hbits, encodeRaw_symbol, encodeRaw_symbol]
  rfl

/-- Four bits left over are a symbol with two bits of padding (rule R165). -/
theorem encodeRaw_four (cfg : Config) (x : BitVec 4) : encodeRaw cfg (bitsOf 4 x.toNat) = [sym cfg (x ++ 0#2)] := by
  have hpadded : encodeRaw cfg (bitsOf 4 x.toNat) = encodeRaw cfg (bitsOf 6 (x ++ 0#2).toNat ++ []) := by
    rw [bitsOf_toNat_append (m := 4) (n := 2)]
    simp [encodeRaw, bitsOf]
  rw [hpadded, encodeRaw_symbol]
  rfl

/-- The two bytes of an empty response are packed as a datagram of 12 bits with ID 0 and a symbol (rules R108, R165). -/
theorem emptyResponse_eq (cfg : Config) (crc : Byte) :
    encodeRaw cfg (bitsOfBytes (responseBytes (BitVec.ofNat 8 0) [] crc)) =
      dg12 cfg 0 (0b0000#4 ++ crc.extractLsb' 4 4) ++ [sym cfg (crc.extractLsb' 0 4 ++ 0#2)] := by
  have hbits : bitsOfBytes (responseBytes (BitVec.ofNat 8 0) [] crc) =
      bitsOf 4 (0#4).toNat ++
        (bitsOf 8 (0b0000#4 ++ crc.extractLsb' 4 4).toNat ++ bitsOf 4 (crc.extractLsb' 0 4).toNat) := by
    have hzero : bitsOf 8 0 = bitsOf 4 0 ++ bitsOf 4 0 := rfl
    rw [bitsOf_toNat_append (m := 4) (n := 4)]
    simp [bitsOfBytes, responseBytes, bitsOf_split (m := 4) (n := 4) crc, hzero]
  rw [hbits, encodeRaw_dg12_append, encodeRaw_four]
  rfl

/-! ### The CRC of a DECODER_STATE datagram -/

/-- The first 40 bits of the datagram are the five bytes the sender's CRC covers (rules R161, R196). -/
theorem octets_decoderState (f : Byte) (n : BitVec 12) (c : BitVec 16) (crc : Byte) :
    octets ((bitsOf 4 (13#4).toNat ++ bitsOf 44 (f ++ n ++ c ++ crc).toNat).take 40) = stateBytes f n c := by
  have hbits : bitsOf 4 (13#4).toNat ++ bitsOf 44 (f ++ n ++ c ++ crc).toNat =
      bitsOfBytes (stateBytes f n c) ++ bitsOf 8 crc.toNat := by
    simp [bitsOfBytes, stateBytes, bitsOf_toNat_append (m := 4) (n := 4), bitsOf_toNat_append (m := 36) (n := 8),
      bitsOf_toNat_append (m := 20) (n := 16), bitsOf_toNat_append (m := 8) (n := 12), bitsOf_split (m := 4) (n := 4) f,
      bitsOf_split (m := 4) (n := 8) n, bitsOf_split (m := 8) (n := 8) c]
  have htake : (bitsOfBytes (stateBytes f n c) ++ bitsOf 8 crc.toNat).take 40 = bitsOfBytes (stateBytes f n c) :=
    List.take_left' (by simp [stateBytes])
  rw [hbits, htake]
  simpa using octets_bitsOfBytes (stateBytes f n c) (rest := []) (by decide)

theorem decoderStateCrcValid_frame (f : Byte) (n : BitVec 12) (c : BitVec 16) (crc : Byte) :
    decoderStateCrcValid (bitsOf 4 (13#4).toNat ++ bitsOf 44 (f ++ n ++ c ++ crc).toNat) crc =
      decide (crc8 (stateBytes f n c) 0 = crc) := by
  rw [decoderStateCrcValid, octets_decoderState]
  rfl

/-! ### Rows from a waiting receiver -/

theorem dgSrq_waiting (hw : Waiting s.rcv) (e : Bool) (a : BitVec 11) :
    let bytes := [sym s.cfg (BitVec.ofBool e ++ a.extractLsb' 6 5), sym s.cfg (a.extractLsb' 0 6)]
    LineGives s (.dgSrq e a) (rxSteps s.cfg bytes s.rcv).1 (rxSteps s.cfg bytes s.rcv).2 := by
  obtain ⟨-, -, hds⟩ := hw
  exact lineGives_of_rxRead rfl (rxRead_of_not_expecting hds _)

section Waits

variable (henc : s.cfg.encOk) (hw : Waiting s.rcv)
include henc hw

theorem dgPom_waiting (v : Byte) : LineGives s (.dgPom v) (delivered s.rcv 12) [.pom v] :=
  lineGives_byte henc hw 0 .pom .pom rfl (expectedBits_any rfl rfl rfl _) rfl fun _ => rfl

theorem dgAdrHigh_waiting (v : Byte) :
    LineGives s (.dgAdrHigh v) { s.rcv with rxTotal := 12, rxAdrHigh := v } [.adrHigh v] := by
  have hcache : cacheAfter .adrHigh v.toNat = v := BitVec.extractLsb'_eq_self
  have hrow := lineGives_byte (i := .dgAdrHigh v) henc hw 1 .adrHigh .adrHigh rfl (expectedBits_any rfl rfl rfl _) rfl
    fun _ => rfl
  rwa [hcache] at hrow

theorem dgAdrLow_unpaired (h : s.rcv.rxAdrHigh = 0) (v : Byte) :
    LineGives s (.dgAdrLow v) (delivered s.rcv 12) [.adrLow v (v.setWidth 14) false] :=
  lineGives_byte henc hw 2 .adrLow (fun x => .adrLow x (x.setWidth 14) false) rfl (expectedBits_any rfl rfl rfl _) rfl
    fun _ => congrArg some (if_neg (not_not.2 h))

theorem dgAdrLow_paired (h : s.rcv.rxAdrHigh ≠ 0) (v : Byte) :
    LineGives s (.dgAdrLow v) (delivered s.rcv 12) [.adrLow v (s.rcv.rxAdrHigh.extractLsb' 0 6 ++ v) true] :=
  lineGives_byte henc hw 2 .adrLow (fun x => .adrLow x (s.rcv.rxAdrHigh.extractLsb' 0 6 ++ x) true) rfl
    (expectedBits_any rfl rfl rfl _) rfl fun _ => congrArg some (if_pos h)

theorem dgDyn_waiting (v : Byte) (x : BitVec 6) : LineGives s (.dgDyn v x) (delivered s.rcv 18) [.dyn v x] :=
  lineGives_datagram henc hw 7 .dyn rfl (encodeDatagram_eq_dg18 _ _ _) rfl (by decide) (expectedBits_any rfl rfl rfl _)
    rfl (congrArg₂ (fun a b => some (Msg.dyn a b)) (extract_append_high v x) (extract_append_low v x))

/-- The four extended-POM rows differ in ID, kind and sequence number. -/
theorem lineGives_xpom (id : BitVec 4) (k : Kind) (seq : BitVec 2) {a b c d : Byte}
    (hline : lineBytes s.cfg i = some (dg36 s.cfg id (a ++ b ++ c ++ d)))
    (hexp : expectedBits id s.rcv.rxContext = 32) (hres : resolve id 36 s.rcv.rxContext = some k)
    (hk : ∀ p frame hi, construct k p frame hi = some (xpomMsg seq p)) :
    LineGives s i { s.rcv with rxTotal := 36, rxAdrHigh := cacheAfter k (a ++ b ++ c ++ d : Word32).toNat }
      [.xpom seq a b c d] := by
  obtain ⟨ha, hb, hc, hd⟩ := xpom_fields a b c d
  refine lineGives_datagram henc hw id k hline (encodeDatagram_eq_dg36 _ _ _) rfl (by decide) hexp hres ?_
  simp only [hk, xpomMsg, payloadField_toNat, ha, hb, hc, hd]

theorem dgStat2_waiting (v : Byte) :
    LineGives s (.dgStat2 v) (partway s.rcv 36 (bitsOf 12 (0x800 + v.toNat))) [] :=
  lineGives_partway henc hw 8 rfl (encodeDatagram_eq_dg12 _ _ _) rfl (by decide) (expectedBits_any rfl rfl rfl _)
    (by decide : 8 < 32)

theorem dgCvAuto_waiting (cv : BitVec 24) (v : Byte) :
    LineGives s (.dgCvAuto cv v) (delivered s.rcv 36) [.cvAuto cv v] :=
  lineGives_datagram henc hw 12 .cvAuto rfl (encodeDatagram_eq_dg36 _ _ _) rfl (by decide)
    (expectedBits_any rfl rfl rfl _) rfl
    (congrArg₂ (fun a b => some (Msg.cvAuto a b)) (extract_append_high cv v) (extract_append_low cv v))

theorem dgBlock_waiting (v : Word32) :
    LineGives s (.dgBlock v) (partway s.rcv 48 (bitsOf 36 (0xD00000000 + v.toNat))) [] :=
  lineGives_partway henc hw 13 rfl (encodeDatagram_eq_dg36 _ _ _) rfl (by decide) (expectedBits_any rfl rfl rfl _)
    (by decide : 32 < 44)

theorem dgDecoderState_waiting (f : Byte) (n : BitVec 12) (c : BitVec 16) (crc : Byte) :
    LineGives s (.dgDecoderState f n c crc) (delivered s.rcv 48)
      [.decoderState f n c crc (decide (crc8 (stateBytes f n c) 0 = crc))] := by
  obtain ⟨hf, hn, hc, hcrc⟩ := decoderState_fields f n c crc
  refine lineGives_datagram henc hw 13#4 .decoderState rfl (encodeDatagram_eq_dg48 _ _ _) rfl (by decide)
    (expectedBits_any rfl rfl rfl _) rfl ?_
  simp only [construct, decoderStateMsg, payloadField_toNat, hf, hn, hc, hcrc]
  rw [decoderStateCrcValid_frame]

theorem dgRerail_waiting (v : Byte) : LineGives s (.dgRerail v) (delivered s.rcv 12) [.rerail v] :=
  lineGives_byte henc hw 14 .rerail .rerail rfl (expectedBits_any rfl rfl rfl _) rfl fun _ => rfl

theorem dgDecoderUnique_waiting (m : BitVec 12) (p : Word32) :
    LineGives s (.dgDecoderUnique m p) (delivered s.rcv 48) [.decoderUnique m p] :=
  lineGives_datagram henc hw 15 .decoderUnique rfl (encodeDatagram_eq_dg48 _ _ _) rfl (by decide)
    (expectedBits_any rfl rfl rfl _) rfl
    (congrArg₂ (fun a b => some (Msg.decoderUnique a b)) (extract_append_high m p) (extract_append_low m p))

/-- A row of one datagram of 12 bits and one symbol more, which waits for its datagram. -/
theorem lineGives_byte_symbol (num : BitVec 4) (k : Kind) (mk : Byte → Msg) {v : Byte} {w : BitVec 6}
    (hline : lineBytes s.cfg i = some (dg12 s.cfg num v ++ [sym s.cfg w]))
    (hexp : expectedBits num s.rcv.rxContext = 8) (hres : resolve num 12 s.rcv.rxContext = some k)
    (hmk : ∀ frame, construct k v.toNat frame s.rcv.rxAdrHigh = some (mk (v.extractLsb' 0 8)))
    (hcache : cacheAfter k v.toNat = 0) :
    LineGives s i { delivered s.rcv 12 with rxAcc := bitsOf 6 w.toNat } [mk v] := by
  obtain ⟨hst, hacc, hds⟩ := id hw
  have hfirst : rxSteps s.cfg (dg12 s.cfg num v) s.rcv = (delivered s.rcv 12, [mk v]) := by
    rw [← rxRead_of_not_expecting hds, ← encodeDatagram_eq_dg12,
      rxRead_datagram henc hw rfl (by decide) hexp hres (hmk _), hcache, BitVec.extractLsb'_eq_self]
    rfl
  have hwait : rxStep s.cfg (sym s.cfg w) (delivered s.rcv 12) =
      (accumulate (delivered s.rcv 12) (bitsOf 6 w.toNat), none) := by
    rw [rxStep_of_data (decode4of8_sym henc w)]
    exact rxExamine_of_few hst (by simp [delivered, hacc])
  refine lineGives_of_rxRead hline ?_
  rw [rxRead_of_not_expecting hds, rxSteps_append, hfirst, rxSteps_cons, hwait]
  simp [rxAfter, rxSteps, accumulate, delivered, hacc]

/-- The response of an empty data space, read as the bits it is: a POM and a symbol more (rules R108, R210). -/
theorem dgDataSpace_waiting (crc : Byte) :
    LineGives s (.dgDataSpace [] crc) { delivered s.rcv 12 with rxAcc := bitsOf 6 (4 * crc.toNat) }
      [.pom (0b0000#4 ++ crc.extractLsb' 4 4)] := by
  have hrest : bitsOf 6 (crc.extractLsb' 0 4 ++ 0#2).toNat = bitsOf 6 (4 * crc.toNat) := by
    revert crc
    decide
  rw [← hrest]
  exact lineGives_byte_symbol henc hw 0 .pom .pom (congrArg some (emptyResponse_eq s.cfg crc))
    (expectedBits_any rfl rfl rfl _) rfl (fun _ => rfl) rfl

theorem dgExt_mobile (hctx : s.rcv.rxContext = .mobile) (t : BitVec 6) (p : Byte) :
    LineGives s (.dgExt t p) (delivered s.rcv 18) [.ext t p] :=
  lineGives_datagram henc hw 3 .ext rfl (encodeDatagram_eq_dg18 _ _ _) rfl (by decide) (by rw [hctx]; rfl) rfl
    (congrArg₂ (fun a b => some (Msg.ext a b)) (extract_append_high t p) (extract_append_low t p))

theorem dgExt_stationary (hctx : s.rcv.rxContext ≠ .mobile) (t : BitVec 6) (p : Byte) :
    LineGives s (.dgExt t p) { delivered s.rcv 12 with rxAcc := bitsOf 6 p.toNat }
      [.stat4 (t ++ p.extractLsb' 6 2)] := by
  have hrest : bitsOf 6 (p.extractLsb' 0 6).toNat = bitsOf 6 p.toNat := by
    revert p
    decide
  rw [← hrest]
  exact lineGives_byte_symbol henc hw 3 .stat4 .stat4 (congrArg some (dg18_eq_dg12 s.cfg 3 t p))
    (expectedBits_stationary hctx rfl rfl) (if_neg hctx) (fun _ => rfl) rfl

theorem dgTime_stationary (hctx : s.rcv.rxContext ≠ .mobile) (u : Bool) (v : BitVec 7) :
    LineGives s (.dgTime u v) (delivered s.rcv 12) [.time u v] := by
  obtain ⟨hunit, hvalue⟩ := time_fields u v
  exact lineGives_datagram henc hw 5 .time rfl (encodeDatagram_eq_dg12 _ _ _) rfl (by decide)
    (expectedBits_stationary hctx rfl rfl) rfl (congrArg₂ (fun a b => some (Msg.time a b)) hunit hvalue)

end Waits

/-! ### Symbols from any receiver -/

/-- ACK and NACK are no data symbols (rule R152). -/
theorem decode4of8_ne_data {b : Byte} (hb : b ∈ [ack1, ack2, nack]) (v : BitVec 6) : decode4of8 cfg b ≠ .data v := by
  simp only [List.mem_cons, List.not_mem_nil, or_false] at hb
  rcases hb with rfl | rfl | rfl <;> exact Machine.Symbol.noConfusion

/-- A first symbol of two bits holds the ID 0 (rule R188). -/
theorem bitsOf_two (h : BitVec 2) : bitsOf 6 h.toNat = bitsOf 4 (0#4).toNat ++ bitsOf 2 h.toNat := by
  revert h
  decide

section Symbols

variable (henc : s.cfg.encOk) (hds : s.rcv.rxExpectDs = false)
include hds

/-- A row of one byte that is no data symbol (rule R209). -/
theorem lineGives_clear {b : Byte} (hline : lineBytes s.cfg i = some [b]) (hb : ∀ v, decode4of8 s.cfg b ≠ .data v) :
    LineGives s i { s.rcv with rxState := .idle, rxAcc := [] } [] := by
  refine lineGives_of_rxRead hline ?_
  rcases rxStep_cases s.cfg b s.rcv with ⟨v, hv, -⟩ | ⟨-, hstep⟩
  · exact absurd hv (hb v)
  · rw [rxRead_of_not_expecting hds, rxSteps_cons, hstep]
    rfl

include henc

/-- A data symbol enters the accumulator, which is then examined (rule R186). -/
theorem symData_of_rxExamine (v : BitVec 6) {m : Option Msg}
    (h : rxExamine (accumulate s.rcv (bitsOf 6 v.toNat)) = (r, m)) : LineGives s (.symData v) r m.toList := by
  refine lineGives_of_rxRead (bytes := [sym s.cfg v]) rfl ?_
  rw [rxRead_of_not_expecting hds, rxSteps_cons, rxStep_of_data (decode4of8_sym henc v), h]
  simp [rxAfter, rxSteps]

theorem symData_first (v : BitVec 6) (hst : s.rcv.rxState = .idle) (hacc : s.rcv.rxAcc = []) :
    LineGives s (.symData v) { s.rcv with rxAcc := bitsOf 6 v.toNat } [] := by
  refine symData_of_rxExamine henc hds v (m := none) ?_
  rw [rxExamine_of_few (r := accumulate s.rcv _) hst (by simp [hacc])]
  simp [accumulate, hacc]

theorem symData_middle (v : BitVec 6) (hst : s.rcv.rxState = .reading)
    (hlt : s.rcv.rxAcc.length + 6 < s.rcv.rxTotal.toNat) :
    LineGives s (.symData v) { s.rcv with rxAcc := s.rcv.rxAcc ++ bitsOf 6 v.toNat } [] := by
  refine symData_of_rxExamine henc hds v (m := none) ?_
  rw [rxExamine_of_reading (r := accumulate s.rcv _) hst, rxDeliver_of_short (by simpa using hlt)]
  rfl

/-- The symbol that completes a datagram delivers its message (rules R184, R186). -/
theorem symData_completes (v : BitVec 6) {id : BitVec 4} {n : Nat} {p : BitVec n} {k : Kind} {m : Msg}
    (hstart : rxExamine (accumulate s.rcv (bitsOf 6 v.toNat)) =
      rxDeliver (partway s.rcv (BitVec.ofNat 6 (4 + n)) (bitsOf 4 id.toNat ++ bitsOf n p.toNat)))
    (htotal : (BitVec.ofNat 6 (4 + n)).toNat = 4 + n) (hres : resolve id (4 + n) s.rcv.rxContext = some k)
    (hm : construct k p.toNat (bitsOf 4 id.toNat ++ bitsOf n p.toNat) s.rcv.rxAdrHigh = some m)
    (hcache : cacheAfter k p.toNat = 0) :
    LineGives s (.symData v) { delivered s.rcv (BitVec.ofNat 6 (4 + n)) with rxState := .idle, rxAcc := [] } [m] := by
  refine symData_of_rxExamine henc hds v (m := some m) ?_
  rw [hstart, rxDeliver_datagram (r := partway s.rcv (BitVec.ofNat 6 (4 + n)) _) rfl htotal rfl hres hm, hcache]
  rfl

theorem symData_completes_pom (v : BitVec 6) (h : BitVec 2) (hst : s.rcv.rxState = .idle)
    (hacc : s.rcv.rxAcc = bitsOf 6 h.toNat) :
    LineGives s (.symData v) { delivered s.rcv 12 with rxAcc := [] } [.pom (h ++ v)] := by
  have hbits : s.rcv.rxAcc ++ bitsOf 6 v.toNat = bitsOf 4 (0#4).toNat ++ bitsOf 8 (h ++ v).toNat := by
    rw [hacc, bitsOf_two, List.append_assoc, ← bitsOf_toNat_append h v]
  have hstart : rxExamine (accumulate s.rcv (bitsOf 6 v.toNat)) =
      rxDeliver (partway s.rcv 12 (bitsOf 4 (0#4).toNat ++ bitsOf 8 (h ++ v).toNat)) := by
    rw [rxExamine_of_known (n := 8) (r := accumulate s.rcv _) hst (by simp [hacc])
      (by rw [accumulate_rxAcc, hbits, rxId_datagram]; exact expectedBits_any rfl rfl rfl _) (by decide),
      accumulate_rxAcc, hbits]
    rfl
  have hrow := symData_completes henc hds v (n := 8) (k := .pom) (m := .pom (h ++ v)) hstart rfl rfl
    (congrArg (fun x => some (Msg.pom x)) BitVec.extractLsb'_eq_self) rfl
  rw [← hst] at hrow
  exact hrow

theorem symData_completes_ext (v : BitVec 6) (h : Byte) (hst : s.rcv.rxState = .reading) (htotal : s.rcv.rxTotal = 18)
    (hacc : s.rcv.rxAcc = bitsOf 12 (0x300 + h.toNat)) :
    LineGives s (.symData v) { delivered s.rcv 18 with rxState := .idle, rxAcc := [] }
      [.ext (h.extractLsb' 2 6) (h.extractLsb' 0 2 ++ v)] := by
  have hbits : s.rcv.rxAcc ++ bitsOf 6 v.toNat = bitsOf 4 (3#4).toNat ++ bitsOf 14 (h ++ v).toNat := by
    have hhead : bitsOf 12 (0x300 + h.toNat) = bitsOf 4 (3#4).toNat ++ bitsOf 8 h.toNat := (bitsOf_header 3#4 h).symm
    rw [hacc, hhead, List.append_assoc, ← bitsOf_toNat_append h v]
  have hstart : rxExamine (accumulate s.rcv (bitsOf 6 v.toNat)) =
      rxDeliver (partway s.rcv 18 (bitsOf 4 (3#4).toNat ++ bitsOf 14 (h ++ v).toNat)) := by
    rw [rxExamine_of_reading (r := accumulate s.rcv _) hst, ← hbits]
    simp [accumulate, partway, hst, htotal]
  have htype : (h ++ v : BitVec 14).extractLsb' 8 6 = h.extractLsb' 2 6 := extract_append_of_le h v 8 6 (by decide)
  have hposition : (h ++ v : BitVec 14).extractLsb' 0 8 = h.extractLsb' 0 2 ++ v := by
    simpa using extract_append_across h v 0 2 6 rfl
  exact symData_completes henc hds v (k := .ext) hstart rfl rfl
    (congrArg₂ (fun a b => some (Msg.ext a b)) htype hposition) rfl

end Symbols

/-! ### Data-space responses -/

/-- The length byte as sent has zero in bits 7 to 5 (rules R108, R200). -/
theorem lenByte_masked {n : Nat} (h : n ≤ 16) : (BitVec.ofNat 8 n &&& dsLenMask).toNat = n := by
  have hall : ∀ n < 17, (BitVec.ofNat 8 n &&& dsLenMask).toNat = n := by decide
  exact hall n (by omega)

/-- The bytes of a response spell its message, the CRC compared (rules R200, R203). -/
theorem dataSpaceMsg_response (num : Byte) {data : List Byte} (h : data.length ≤ 16) (crc : Byte) :
    dataSpaceMsg num (responseBytes (BitVec.ofNat 8 data.length) data crc) =
      some (.dataSpace num (BitVec.ofNat 8 data.length) data crc
        (decide (crc8 (BitVec.ofNat 8 data.length :: data) num = crc))) := by
  have hmax : ¬ dsMaxPayload < data.length := Nat.not_lt.2 h
  have hcrc : dataSpaceCrcValid num (BitVec.ofNat 8 data.length) data crc =
      decide (crc8 (BitVec.ofNat 8 data.length :: data) num = crc) := rfl
  simp only [responseBytes, dataSpaceMsg, List.cons_append, lenByte_masked h, if_neg hmax]
  simp [hcrc]

section DataSpace

variable (hds : s.rcv.rxExpectDs = true)
include hds

theorem rxRead_of_expecting (bytes : List Byte) : rxRead s.cfg bytes s.rcv = rxDataSpace s.cfg bytes s.rcv :=
  if_pos hds

/-- A lone byte is no response: fewer than 8 bits hold no length byte (rules R202, R205). -/
theorem lineGives_expecting {b : Byte} (hline : lineBytes s.cfg i = some [b]) :
    LineGives s i (dataSpaceDone s.rcv) [] := by
  refine lineGives_of_rxRead hline ?_
  rw [rxRead_of_expecting hds, rxDataSpace, dataSymbols]
  cases decode4of8 s.cfg b with
  | data v =>
    have hnone : octets (unpack [v]) = [] := octets_short (by simp)
    simp only [dataSymbols, Option.map_some, hnone]
    rfl
  | ack1 | ack2 | nack | invalid => rfl

theorem dgDataSpace_expecting (henc : s.cfg.encOk) {data : List Byte} (hlen : data.length ≤ 16) (crc : Byte) :
    LineGives s (.dgDataSpace data crc) (dataSpaceDone s.rcv)
      [.dataSpace s.rcv.rxExpectDsNum (BitVec.ofNat 8 data.length) data crc
        (decide (crc8 (BitVec.ofNat 8 data.length :: data) s.rcv.rxExpectDsNum = crc))] := by
  refine lineGives_of_rxRead rfl ?_
  have hbytes := octets_bitsOfBytes (responseBytes (BitVec.ofNat 8 data.length) data crc)
    (Nat.lt_trans (length_padding_lt (bitsOfBytes (responseBytes (BitVec.ofNat 8 data.length) data crc))) (by decide))
  obtain ⟨symbols, hsym, hunpack⟩ :=
    dataSymbols_encodeRaw henc (bitsOfBytes (responseBytes (BitVec.ofNat 8 data.length) data crc))
  rw [rxRead_of_expecting hds, rxDataSpace, hsym]
  dsimp only
  rw [hunpack, hbytes, dataSpaceMsg_response _ hlen]
  rfl

end DataSpace

end Lemmas

/-- Settles O37: the rows one by one, from the lemmas on waiting, half-filled and expecting receivers. -/
theorem lineRowsAreReads : Obligations.LineRowsAreReads := by
  refine ⟨fun s i bytes hline => ?_, fun s henc hw => ?_, fun s henc hw hctx => ?_, fun s henc hw hctx => ?_,
    fun s henc hds => ?_, fun s henc hds => ?_⟩
  · exact ⟨lineGives_of_rxRead hline rfl, readGives_rxRead bytes s⟩
  · exact ⟨dgPom_waiting henc hw, dgAdrHigh_waiting henc hw, fun v h => dgAdrLow_unpaired henc hw h v,
      fun v h => dgAdrLow_paired henc hw h v, dgDyn_waiting henc hw,
      fun _ _ _ _ => lineGives_xpom henc hw 8 .xpom0 0 rfl (expectedBits_any rfl rfl rfl _) rfl fun _ _ _ => rfl,
      fun _ _ _ _ => lineGives_xpom henc hw 9 .xpom1 1 rfl (expectedBits_any rfl rfl rfl _) rfl fun _ _ _ => rfl,
      fun _ _ _ _ => lineGives_xpom henc hw 10 .xpom2 2 rfl (expectedBits_any rfl rfl rfl _) rfl fun _ _ _ => rfl,
      fun _ _ _ _ => lineGives_xpom henc hw 11 .xpom3 3 rfl (expectedBits_any rfl rfl rfl _) rfl fun _ _ _ => rfl,
      dgStat2_waiting henc hw, dgCvAuto_waiting henc hw, dgBlock_waiting henc hw, dgDecoderState_waiting henc hw,
      dgRerail_waiting henc hw, dgDecoderUnique_waiting henc hw, dgSrq_waiting hw, dgDataSpace_waiting henc hw⟩
  · have hexp : ∀ id, expectedBits id s.rcv.rxContext = expectedBits id .mobile := fun id => by rw [hctx]
    have hres : ∀ id total, resolve id total s.rcv.rxContext = resolve id total .mobile := fun id total => by rw [hctx]
    exact ⟨dgExt_mobile henc hw hctx,
      fun _ => lineGives_partway henc hw 3 rfl (encodeDatagram_eq_dg12 _ _ _) rfl (by decide) (hexp 3)
        (by decide : 8 < 14),
      fun _ => lineGives_partway henc hw 3 rfl (encodeDatagram_eq_dg12 _ _ _) rfl (by decide) (hexp 3)
        (by decide : 8 < 14),
      fun _ => lineGives_byte henc hw 4 .basicInfo .basicInfo rfl (hexp 4) (hres 4 12) fun _ => rfl,
      fun _ => lineGives_byte henc hw 4 .basicInfo .basicInfo rfl (hexp 4) (hres 4 12) fun _ => rfl,
      fun _ _ => lineGives_unknown henc hw 5 rfl (hexp 5), fun _ => lineGives_unknown henc hw 6 rfl (hexp 6)⟩
  · exact ⟨dgExt_stationary henc hw hctx,
      fun _ => lineGives_byte henc hw 3 .stat4 .stat4 rfl (expectedBits_stationary hctx rfl rfl) (if_neg hctx)
        fun _ => rfl,
      fun _ => lineGives_byte henc hw 3 .stat4 .stat4 rfl (expectedBits_stationary hctx rfl rfl) (if_neg hctx)
        fun _ => rfl,
      fun _ => lineGives_byte henc hw 4 .stat1 .stat1 rfl (expectedBits_stationary hctx rfl rfl) (if_neg hctx)
        fun _ => rfl,
      fun _ => lineGives_byte henc hw 4 .stat1 .stat1 rfl (expectedBits_stationary hctx rfl rfl) (if_neg hctx)
        fun _ => rfl,
      dgTime_stationary henc hw hctx,
      fun _ => lineGives_byte henc hw 6 .error .error rfl (expectedBits_stationary hctx rfl rfl) rfl fun _ => rfl⟩
  · exact ⟨lineGives_clear (b := ack1) hds rfl (decode4of8_ne_data (by simp)),
      lineGives_clear (b := ack2) hds rfl (decode4of8_ne_data (by simp)),
      lineGives_clear (b := nack) hds rfl (decode4of8_ne_data (by simp)),
      fun v => ⟨symData_first henc hds v, symData_middle henc hds v, symData_completes_pom henc hds v,
        symData_completes_ext henc hds v⟩⟩
  · exact ⟨fun data crc hlen => dgDataSpace_expecting hds henc hlen crc, lineGives_expecting hds rfl,
      lineGives_expecting hds rfl, lineGives_expecting hds rfl, fun _ => lineGives_expecting hds rfl⟩

end Sys2Proof.Line

/-! PROOFS. The codec (40_codec.md) and what rests on it: the laws of the symbol code and of the CRC (rules R153, R160),
packing and unpacking (rules R165, R169), the sends split over the channels (rules R239, R240, R247), the symbols on
the wire (rule R154), the CRC of a data-space response (rule R162), and the logon commands that name a decoder (rules
R333, R334). -/

namespace Sys2Proof.Codec

open Sys2Proof.Machine Sys2Proof.Claims Sys2Proof.Safety Sys2Proof.Memory Sys2Proof.Encoding Sys2Proof.Line

section Lemmas

variable {cfg : Config} {s t : State} {i : Instr}

/-! ### The symbol code -/

/-- Every entry of the table is the symbol of a 6-bit value (rule R101). -/
theorem exists_sym_of_mem (h : cfg.encOk) {b : Byte} (hb : b ∈ cfg.enc4of8) : ∃ v : BitVec 6, b = sym cfg v := by
  obtain ⟨hlen, -⟩ := h
  obtain ⟨n, hn, rfl⟩ := List.getElem_of_mem hb
  have hv : (BitVec.ofNat 6 n).toNat = n := Nat.mod_eq_of_lt (by omega)
  exact ⟨BitVec.ofNat 6 n, by rw [sym, hv, List.getD_eq_getElem _ _ hn]⟩

/-- A byte that decodes to a value is that value's symbol (rule R153). -/
theorem eq_sym_of_decode4of8 (h : cfg.encOk) {b : Byte} {v : BitVec 6} (hb : decode4of8 cfg b = .data v) :
    b = sym cfg v := by
  have hvalid : b ∈ [ack1, ack2, nack] ++ cfg.enc4of8 := by
    by_contra hno
    cases hb.symm.trans ((decode4of8_eq_invalid_iff h b).2 hno)
  rcases List.mem_append.1 hvalid with hack | hmem
  · exact absurd hb (decode4of8_ne_data hack v)
  · obtain ⟨w, rfl⟩ := exists_sym_of_mem h hmem
    cases (decode4of8_sym h w).symm.trans hb
    rfl

/-! ### The CRC -/

theorem crcShift_injective : Function.Injective crcShift := by
  intro a b h
  have hzero : crcShift (a ^^^ b) = 0 := by rw [crcShift_xor, h]; exact BitVec.xor_self
  exact BitVec.xor_eq_zero_iff.1 (crcShift_eq_zero _ hzero)

/-- The register after a byte tells what the register and the byte were together. -/
theorem crcByte_eq_crcByte_iff {a b x y : Byte} : crcByte a x = crcByte b y ↔ a ^^^ x = b ^^^ y := by
  simp only [crcByte, crcShift_injective.eq_iff]

theorem crcByte_left_injective (x : Byte) : Function.Injective (crcByte · x) :=
  fun _ _ h => (BitVec.xor_left_inj x).1 (crcByte_eq_crcByte_iff.1 h)

theorem crcByte_right_injective (c : Byte) : Function.Injective (crcByte c) :=
  fun _ _ h => (BitVec.xor_right_inj c).1 (crcByte_eq_crcByte_iff.1 h)

@[simp] theorem crcByte_self (c : Byte) : crcByte c c = 0 := by
  have hshift : crcShift 0#8 = 0#8 := by decide
  simp only [crcByte, BitVec.xor_self, hshift, BitVec.ofNat_eq_ofNat]

/-- Different start values give different CRCs. -/
theorem crc8_injective (data : List Byte) : Function.Injective (crc8 data) := by
  induction data with
  | nil => exact fun _ _ h => h
  | cons x rest ih => exact fun _ _ h => crcByte_left_injective x (ih h)

/-- A string followed by its CRC has the CRC zero (rule R160). -/
theorem crc8_append_crc8 (data : List Byte) (init : Byte) : crc8 (data ++ [crc8 data init]) init = 0 := by
  simp [crc8_append]

/-- Changing one byte of the data changes the CRC (rule R160). -/
theorem crc8_set_ne {data : List Byte} {n : Nat} (h : n < data.length) {b : Byte} (hb : b ≠ data[n]) (init : Byte) :
    crc8 (data.set n b) init ≠ crc8 data init := by
  induction data generalizing n init with
  | nil => simp at h
  | cons x rest ih =>
    cases n with
    | zero => exact fun e => hb (crcByte_right_injective init (crc8_injective rest e))
    | succ n => exact ih (by simpa using h) hb (crcByte init x)

theorem xor_bit_ne (b : Byte) {k : Nat} (hk : k < 8) : b ^^^ (1#8 <<< k) ≠ b := by
  have hbit : ∀ k < 8, (1#8 <<< k) ≠ 0#8 := by decide
  exact fun e => hbit k hk ((BitVec.xor_right_inj b).1 (e.trans BitVec.xor_zero.symm))

/-- Changing one bit of the data changes the CRC (rule R160). -/
theorem crc8_flip_ne {data : List Byte} {n : Nat} (h : n < data.length) {k : Nat} (hk : k < 8) (init : Byte) :
    crc8 (data.set n (data[n] ^^^ (1#8 <<< k))) init ≠ crc8 data init :=
  crc8_set_ne h (xor_bit_ne _ hk) init

/-- The worked example of rule R160: the ASCII digits 1 to 9. -/
theorem crc8_digits : crc8 [0x31, 0x32, 0x33, 0x34, 0x35, 0x36, 0x37, 0x38, 0x39] 0 = 0xA1 := by
  simp [crcByte, crcShift]

/-! ### The split sends -/

/-- A 48-bit datagram goes out as its two halves (rules R106, R224). -/
theorem enqueueSplit_dg48 (cfg : Config) (id : BitVec 4) (p : BitVec 44) (d : Decoder) :
    enqueueSplit cfg (encodeDatagram cfg id p.toNat 44) d = pushBoth cfg (dg48Head cfg id p) (dg48Tail cfg p) d := by
  rw [enqueueSplit_eq_pushBoth, encodeDatagram_eq_dg48]
  rfl

/-- The model's CRC of a DECODER_STATE covers the five bytes of the statements (rule R161). -/
theorem decoderStateCrc_eq (f : Byte) (n : BitVec 12) (c : BitVec 16) :
    decoderStateCrc f n c = crc8 (stateBytes f n c) 0 := by
  have hwhole : bitsOf 4 (13#4).toNat ++ bitsOf 44 (f ++ n ++ c ++ 0#8).toNat =
      bitsOf 40 (0b1101#4 ++ f ++ n ++ c).toNat ++ bitsOf 8 (0#8).toNat := by
    simp [bitsOf_toNat_append (m := 36) (n := 8), bitsOf_toNat_append (m := 20) (n := 16),
      bitsOf_toNat_append (m := 24) (n := 16), bitsOf_toNat_append (m := 12) (n := 12),
      bitsOf_toNat_append (m := 4) (n := 8), bitsOf_toNat_append (m := 8) (n := 12)]
  rw [decoderStateCrc, ← octets_decoderState f n c 0#8, hwhole, List.take_left' (length_bitsOf 40 _)]

/-- The payload of the DECODER_STATE datagram a sender builds (rules R105, R161). -/
def statePayload (f : Byte) (n : BitVec 12) (c : BitVec 16) : BitVec 44 := f ++ n ++ c ++ crc8 (stateBytes f n c) 0

theorem sendDecoderState_eq (cfg : Config) (f : Byte) (n : BitVec 12) (c : BitVec 16) (d : Decoder) :
    sendDecoderState cfg f n c d =
      pushBoth cfg (dg48Head cfg 13 (statePayload f n c)) (dg48Tail cfg (statePayload f n c)) d := by
  rw [sendDecoderState, wireDecoderState, decoderStateCrc_eq]
  exact enqueueSplit_dg48 cfg 13 (statePayload f n c) d

theorem sendDataSpace_eq (cfg : Config) (num : Byte) (data : List Byte) (d : Decoder) :
    sendDataSpace cfg num data d =
      if data.length ≤ 16 then
        pushBoth cfg ((responseWire cfg num data).take 2) ((responseWire cfg num data).drop 2) d
      else d := by
  unfold sendDataSpace
  split
  · next hlong => exact (if_neg (Nat.not_le.2 hlong)).symm
  · next hlong => exact (enqueueSplit_eq_pushBoth ..).trans (if_pos (Nat.not_lt.1 hlong)).symm

theorem length_responseWire (cfg : Config) (num : Byte) (data : List Byte) :
    (responseWire cfg num data).length = (8 * (data.length + 2) + 5) / 6 := by
  simp [responseWire, length_encodeRaw, responseBytes]

theorem pushBoth_of_room {d : Decoder} (h : Room cfg d) (e1 e2 : List Byte) :
    pushBoth cfg e1 e2 d = { d with ch1Q := d.ch1Q ++ [e1], ch2Q := d.ch2Q ++ [e2] } :=
  if_pos h

/-! ### What an operation writes to the wire -/

/-- A flush hands over queued entries and nothing else (rule R260). -/
theorem write_mem_flushCalls {elapsed : Word32} {d : Decoder} {h : Handle} {bytes : List Byte}
    (hw : Call.write h bytes ∈ flushCalls elapsed d) : bytes ∈ d.ch1Q ∨ bytes ∈ d.ch2Q := by
  unfold flushCalls at hw
  split at hw
  · cases hw
  · simp only [List.mem_append, List.mem_cons, List.not_mem_nil, List.mem_map, reduceCtorEq, or_false, false_or] at hw
    rcases hw with ⟨e, he, heq⟩ | hw
    · cases heq
      exact .inl (List.mem_of_mem_take he)
    · split at hw
      · cases hw
      · simp only [List.mem_cons, List.mem_map, reduceCtorEq, false_or] at hw
        obtain ⟨e, he, heq⟩ := hw
        cases heq
        exact .inr he

theorem write_not_mem_pollCalls (h : Handle) (bytes : List Byte) (x : RxSample) : Call.write h bytes ∉ pollCalls x := by
  simp [pollCalls]

theorem runCmd_calls {cmd : Cmd} (ht : runCmd cmd s = .next t) : t.out.calls = [] := by
  rw [(runCmd_eq_next cmd).1 ht]

/-- The half an operation leaves is named as one value, which unification can read off an arm of `exec`. -/
theorem onDecoder_calls {d : Decoder} (ht : onDecoder (fun _ _ => d) s = .next t) : t.out.calls = [] := by
  rw [(onDecoder_eq_next _).1 ht]

theorem onReceiver_calls {r : Receiver} (ht : onReceiver (fun _ => r) s = .next t) : t.out.calls = [] := by
  rw [(onReceiver_eq_next _).1 ht]

theorem readBytes_calls {bytes : List Byte} {calls : List Call} (ht : readBytes bytes calls s = .next t) :
    t.out.calls = calls := by
  rw [(readBytes_eq_next bytes calls).1 ht]

theorem callsOnly_calls {calls : List Call} (ht : callsOnly calls s = .next t) : t.out.calls = calls := by
  rw [(callsOnly_eq_next calls).1 ht]

/-- What is written to the wire stood in a queue: only a cutout writes (rules R260, R262). -/
theorem exec_writes (ht : exec i s = .next t) {h : Handle} {bytes : List Byte}
    (hw : Call.write h bytes ∈ t.out.calls) : bytes ∈ s.dec.ch1Q ∨ bytes ∈ s.dec.ch2Q := by
  cases i with
  | trigCutoutStart =>
    cases ht
    exact write_mem_flushCalls hw
  | opReset =>
    cases ht
    cases hw
  | dccLogonEnable | dccSelect | dccLogonAssign | dccGetDataStart | dccGetDataCont | dccSetData | dccSetDataEnd
  | dccPomReadBroadcast | dccPomReadShort | dccPomReadLong
  | dccPomWriteBroadcast | dccPomWriteShort | dccPomWriteLong
  | dccPomWriteBitBroadcast | dccPomWriteBitShort | dccPomWriteBitLong
  | dccFunctionG1Broadcast | dccFunctionG1Short | dccFunctionG1Long
  | dccFunctionG2F5Broadcast | dccFunctionG2F5Short | dccFunctionG2F5Long
  | dccFunctionG2F9Broadcast | dccFunctionG2F9Short | dccFunctionG2F9Long
  | dccExtFunctionBroadcast | dccExtFunctionShort | dccExtFunctionLong
  | dccDataSpaceReadBroadcast | dccDataSpaceReadShort | dccDataSpaceReadLong
  | dccAccessory | trigDccPacket =>
    rw [runCmd_calls ht] at hw
    cases hw
  | dgPom | dgAdrHigh | dgAdrLow | dgExt | dgStat4 | dgDrivingInfo | dgBasicInfo | dgStat1 | dgTime | dgError | dgDyn
  | dgXpom0 | dgXpom1 | dgXpom2 | dgXpom3 | dgStat2 | dgCvAuto | dgBlock | dgDecoderState | dgRerail
  | dgDecoderUnique | dgSrq | dgDataSpace
  | symAck1 | symAck2 | symNack | symData =>
    rw [readBytes_calls ht] at hw
    exact absurd hw (write_not_mem_pollCalls h bytes _)
  | opRxRead =>
    rw [readBytes_calls ht] at hw
    obtain ⟨x, -, hx⟩ := List.mem_flatMap.1 hw
    exact absurd hx (write_not_mem_pollCalls h bytes x)
  | opTxBegin | opTxEnd | opRxBegin | opRxEnd =>
    rw [callsOnly_calls ht] at hw
    simp at hw
  | opRxSetContext | opRxExpectDataSpace | opRxCacheTimeout =>
    rw [onReceiver_calls ht] at hw
    cases hw
  | opCvAutoTick | opSecondTick
  | opSendPom | opSendAddress | opSendDynamic | opSendXpom | opSendStatus1 | opSendStatus2 | opSendStatus4 | opSendTime
  | opSendError | opSendCvAuto | opSendDecoderUnique | opSendDecoderState | opSendRerail | opSendServiceRequest
  | opSendExt | opSendDrivingInfo | opSendBasicInfo | opSendBlock | opSendDataSpace
  | opSetAddress | opSetIdentity | opSetClass | opSetExtInfoEnabled | opSetExtInfo | opSetExtPosition
  | opSetDecoderStateFields | opLogonReset | opCvSet | opCvClear | opDsSet | opDsClear =>
    rw [onDecoder_calls ht] at hw
    cases hw

/-- The invariant says of every queued byte that it is an entry of the table (rules R43, R154). -/
theorem mem_table_of_queued (hs : Inv s) {e : Entry} (he : e ∈ s.dec.ch1Q ∨ e ∈ s.dec.ch2Q) {b : Byte} (hb : b ∈ e) :
    b ∈ s.cfg.enc4of8 := by
  obtain ⟨-, ⟨-, -, h1, h2⟩, -⟩ := hs
  obtain ⟨-, -, hmem⟩ : EntryOk s.cfg e := he.elim (h1 e) (h2 e)
  exact hmem b hb

/-! ### Reading a data-space response -/

/-- A row's bytes give the same in every read that polls just them (rule R207, log entry 1). -/
theorem readGives_of_lineGives {r : Receiver} {ms : List Msg} {bytes : List Byte} (h : LineGives s i r ms)
    (hline : lineBytes s.cfg i = some bytes) : ReadGives s bytes r ms := by
  obtain ⟨bytes', hline', hexec⟩ := h
  obtain rfl : bytes' = bytes := Option.some.inj (hline'.symm.trans hline)
  rw [exec_of_lineBytes hline, readLine_eq_readGives, readGives, readGives] at hexec
  injection hexec with hnext
  injection hnext with _ _ hrcv _ hout
  injection hout with _ _ hms _
  rw [← hrcv, ← Option.some.inj hms]
  exact readGives_rxRead bytes' s

/-- A receiver that expects a data space compares the CRC with its own (rules R200, R203). -/
theorem readGives_response (hds : s.rcv.rxExpectDs = true) (henc : s.cfg.encOk) {data : List Byte}
    (hlen : data.length ≤ 16) (crc : Byte) :
    ReadGives s (encodeRaw s.cfg (bitsOfBytes (responseBytes (BitVec.ofNat 8 data.length) data crc)))
      (dataSpaceDone s.rcv)
      [.dataSpace s.rcv.rxExpectDsNum (BitVec.ofNat 8 data.length) data crc
        (decide (crc8 (BitVec.ofNat 8 data.length :: data) s.rcv.rxExpectDsNum = crc))] :=
  readGives_of_lineGives (dgDataSpace_expecting hds henc hlen crc) rfl

/-- The data flipped in one bit under the CRC of the data as sent (rule R162). -/
theorem readGives_flipped (hds : s.rcv.rxExpectDs = true) (henc : s.cfg.encOk) {data : List Byte}
    (hlen : data.length ≤ 16) {n : Nat} (hn : n < data.length) {k : Nat} (hk : k < 8) :
    ReadGives s
      (encodeRaw s.cfg (bitsOfBytes (responseBytes (BitVec.ofNat 8 data.length) (data.set n (data[n] ^^^ (1#8 <<< k)))
        (crc8 (BitVec.ofNat 8 data.length :: data) s.rcv.rxExpectDsNum))))
      (dataSpaceDone s.rcv)
      [.dataSpace s.rcv.rxExpectDsNum (BitVec.ofNat 8 data.length) (data.set n (data[n] ^^^ (1#8 <<< k)))
        (crc8 (BitVec.ofNat 8 data.length :: data) s.rcv.rxExpectDsNum) false] := by
  have hcrc := crc8_flip_ne hn hk (crcByte s.rcv.rxExpectDsNum (BitVec.ofNat 8 data.length))
  have hread := readGives_response hds henc (data := data.set n (data[n] ^^^ (1#8 <<< k)))
    (by rwa [List.length_set]) (crc8 (BitVec.ofNat 8 data.length :: data) s.rcv.rxExpectDsNum)
  rwa [List.length_set, crc8_cons, crc8_cons, decide_eq_false hcrc] at hread

/-! ### The logon commands -/

/-- A logon command addresses nobody and has no default broadcast, so its handler is all of it (rules R320, R324). -/
theorem dccPacket_of_isLogon {cmd : Cmd} (h : isLogon cmd = true) (cfg : Config) (d : Decoder) :
    dccPacket cfg cmd d = handle cfg cmd d := by
  have hown : own cmd d = false := by
    cases cmd with
    | logonEnable | select | logonAssign | getDataStart | getDataCont | setData | setDataEnd => rfl
    | _ => cases h
  have hclear : clearLatch cmd d = d := if_neg (by simp [hown])
  have hnone : cmd ≠ .none := by rintro rfl; cases h
  rw [dccPacket, if_neg hnone, handleRecognised, hclear]
  exact if_neg (by simp [defaultApplies, h])

theorem runCmd_of_isLogon {cmd : Cmd} (h : isLogon cmd = true) (s : State) :
    runCmd cmd s = packetGives s cmd (handle s.cfg cmd s.dec).2 (handle s.cfg cmd s.dec).1 := by
  rw [runCmd, dccPacket_of_isLogon h]
  rfl

theorem identityMatches_iff {mfg : BitVec 12} {uid : Word32} {d : Decoder} :
    identityMatches mfg uid d = true ↔ mfg = d.mfgId ∧ uid = d.productId := by
  simp [identityMatches]

/-- SELECT announces a decoder it names that is not yet announced (rule R333). -/
theorem handleSelect_of_match {mfg : BitVec 12} {uid : Word32} {d : Decoder}
    (h : mfg = d.mfgId ∧ uid = d.productId ∧ logonCode d.logonState < 3) :
    handleSelect mfg uid d = ({ d with logonState := .announced }, false) := by
  obtain ⟨hm, hu, hl⟩ := h
  have hl' : logonCode d.logonState < logonCode .announced := hl
  exact if_pos (by simp [identityMatches_iff.2 ⟨hm, hu⟩, hl'])

theorem handleSelect_of_not_match {mfg : BitVec 12} {uid : Word32} {d : Decoder}
    (h : ¬ (mfg = d.mfgId ∧ uid = d.productId ∧ logonCode d.logonState < 3)) :
    handleSelect mfg uid d = (d, false) := by
  refine if_neg fun hsel => h ?_
  rw [Bool.and_eq_true, identityMatches_iff, decide_eq_true_eq, and_assoc] at hsel
  exact hsel

/-- LOGON_ASSIGN registers the decoder it names under the address and has it send its state (rule R334). -/
theorem handleLogonAssign_of_match {mfg : BitVec 12} {uid : Word32} {d : Decoder}
    (h : mfg = d.mfgId ∧ uid = d.productId) (cfg : Config) (a : BitVec 14) :
    handleLogonAssign cfg mfg uid a d =
      (pushBoth cfg (dg48Head cfg 13 (statePayload d.dsFlags d.dsCount d.dsCaps))
        (dg48Tail cfg (statePayload d.dsFlags d.dsCount d.dsCaps))
        { d with address := a, addrLong := decide (127 < a.toNat), logonState := .registered }, true) := by
  rw [handleLogonAssign, if_pos (identityMatches_iff.2 h), sendDecoderState_eq]

theorem handleLogonAssign_of_not_match {mfg : BitVec 12} {uid : Word32} {d : Decoder}
    (h : ¬ (mfg = d.mfgId ∧ uid = d.productId)) (cfg : Config) (a : BitVec 14) :
    handleLogonAssign cfg mfg uid a d = (d, false) :=
  if_neg (identityMatches_iff.not.2 h)

end Lemmas

/-! ### The obligations -/

/-- Settles O11: the valid bytes are the table's, ACK1, ACK2 and NACK, and the table holds each symbol once. -/
theorem symbolCodeLaws : Obligations.SymbolCodeLaws := by
  intro cfg h
  have hinvalid := decode4of8_eq_invalid_iff h
  refine ⟨fun v => ?_, fun b hw => ?_, fun b => ?_, fun b v hb => ?_⟩
  · rw [encode4of8_eq_sym, decode4of8_sym h]
  · exact (hinvalid b).2 fun hb => hw (weight_of_mem h hb)
  · rw [hinvalid]
    simp [ack1, ack2, nack]
  · rw [encode4of8_eq_sym, eq_sym_of_decode4of8 h hb]

/-- Settles O13: the register's shift is linear and one to one, so a changed byte is never made good by later ones. -/
theorem crcLaws : Obligations.CrcLaws :=
  ⟨crc8_append_crc8, fun _ init _ h _ hk => crc8_flip_ne h hk init, crc8_nil, crc8_digits⟩

/-- Settles O15: each packed byte is the symbol of six bits of the padded string. -/
theorem unpackInvertsEncodeRaw : Obligations.UnpackInvertsEncodeRaw :=
  fun _ bits h => dataSymbols_encodeRaw h bits

/-- Settles O19: both are a split enqueue of a 48-bit datagram. -/
theorem splitSends : Obligations.SplitSends :=
  ⟨fun _ _ => ⟨fun _ => rfl, fun s => congrArg (decoderBecomes s) (enqueueSplit_dg48 s.cfg 15 _ s.dec)⟩,
    fun f n c => ⟨fun _ => rfl, fun s => congrArg (decoderBecomes s) (sendDecoderState_eq s.cfg f n c s.dec)⟩⟩

/-- Settles O20: a split enqueue of the response, under the bound of 16 bytes. -/
theorem dataSpaceSend : Obligations.DataSpaceSend :=
  ⟨fun num data => ⟨fun _ => rfl, fun s => congrArg (decoderBecomes s) (sendDataSpace_eq s.cfg num data s.dec)⟩,
    length_responseWire⟩

/-- Settles O25: what is written was queued, and by the invariant the queues hold entries of the table only. -/
theorem transmittedBytesHaveWeightFour : Obligations.TransmittedBytesHaveWeightFour := by
  intro i s t hs ht h bytes hw b hb
  obtain ⟨⟨henc, -⟩, -⟩ := id hs
  have hmem : b ∈ s.cfg.enc4of8 := mem_table_of_queued hs (exec_writes ht hw) hb
  obtain ⟨v, hv⟩ := exists_sym_of_mem henc hmem
  exact ⟨weight_of_mem henc (List.mem_append_right _ hmem), v, by rw [encode4of8_eq_sym, hv]⟩

/-- Settles O43: the response as sent carries the CRC the receiver computes, and a flipped bit changes that CRC. -/
theorem flippedBitIsFlagged : Obligations.FlippedBitIsFlagged := by
  rintro s d num data henc hcfg hlen hroom hds rfl
  have hsend := sendDataSpace_eq d.cfg s.rcv.rxExpectDsNum data d.dec
  rw [if_pos hlen, pushBoth_of_room hroom, hcfg] at hsend
  refine ⟨{ d with dec := sendDataSpace d.cfg s.rcv.rxExpectDsNum data d.dec, out := {} },
    (responseWire s.cfg s.rcv.rxExpectDsNum data).take 2, (responseWire s.cfg s.rcv.rxExpectDsNum data).drop 2,
    crc8 (BitVec.ofNat 8 data.length :: data) s.rcv.rxExpectDsNum, rfl, ?_, ?_, ?_, ?_⟩
  · rw [hcfg, hsend]
  · rw [hcfg, hsend]
  · rw [List.take_append_drop]
    have hread := readGives_response hds henc hlen (crc8 (BitVec.ofNat 8 data.length :: data) s.rcv.rxExpectDsNum)
    rwa [decide_eq_true rfl] at hread
  · exact fun n hn k hk => readGives_flipped hds henc hlen hn hk

/-- Settles O47: a logon command is its handler, which compares the identity first. -/
theorem selectAndLogonAssign : Obligations.SelectAndLogonAssign := by
  intro s mfg uid d
  refine ⟨fun sub params e => ?_, fun akind addr tail e => ?_⟩
  · have hrun := runCmd_of_isLogon (cmd := .select mfg uid sub params) rfl s
    refine ⟨fun h => hrun.trans ?_, fun h => hrun.trans ?_⟩
    · rw [handle, handleSelect_of_match h]
    · rw [handle, handleSelect_of_not_match h]
  · have hrun := runCmd_of_isLogon (cmd := .logonAssign mfg uid akind addr) rfl s
    refine ⟨fun h => hrun.trans ?_, fun h => hrun.trans ?_⟩
    · rw [handle, handleLogonAssign_of_match h]
      rfl
    · rw [handle, handleLogonAssign_of_not_match h]

end Sys2Proof.Codec

/-! PROOFS. The RX Engine (41_rx_engine.md): the receiver controls and the polling loop (rules R206, R208, R390, R391),
the messages of single datagrams and what their delivery does to the address cache (rules R188 to R199), resynchronising
and continued reads (rules R182, R207, R209), the kinds the byte stream never delivers (rule R210), the data-space mode
(rules R200 to R205), and what one engine sends as another reads it. -/

namespace Sys2Proof.RxEngine

open Sys2Proof.Machine Sys2Proof.Claims Sys2Proof.Safety Sys2Proof.Memory Sys2Proof.Encoding Sys2Proof.Line
  Sys2Proof.Codec Sys2Proof.Invariant

section Lemmas

variable {cfg : Config} {r r' : Receiver} {d s : State} {i j : Instr} {ms ms' : List Msg}

/-! ### The polling loop -/

/-- The rounds after the first are those before the timeout (rules R208, R436). -/
theorem pollRounds_eq_takeWhile (start timeout : Word32) (rounds : List RxSample) :
    pollRounds start timeout rounds = rounds.takeWhile fun x => (x.now - start).toNat < timeout.toNat := by
  induction rounds with
  | nil => rfl
  | cons x rest ih =>
    have hover : waitOver start x.now timeout = !decide ((x.now - start).toNat < timeout.toNat) := by
      simp only [waitOver, BitVec.le_def, ← Nat.not_lt, decide_not]
    rw [pollRounds, List.takeWhile_cons, hover, ih]
    cases decide ((x.now - start).toNat < timeout.toNat) <;> rfl

/-- A round that meets as many bytes as it counted reads that many. -/
theorem readLoop_of_le {n : Nat} {bytes : List Byte} (h : n ≤ bytes.length) :
    readLoop n bytes = (bytes.take n).map some := by
  induction n generalizing bytes with
  | zero => rfl
  | succ n ih =>
    cases bytes with
    | nil => cases h
    | cons b rest => simp [readLoop, ih (Nat.le_of_succ_le_succ h)]

/-- A round that meets fewer bytes than it counted ends with the read of none. -/
theorem readLoop_of_lt {n : Nat} {bytes : List Byte} (h : bytes.length < n) :
    readLoop n bytes = bytes.map some ++ [none] := by
  induction n generalizing bytes with
  | zero => cases h
  | succ n ih =>
    cases bytes with
    | nil => rfl
    | cons b rest => simp [readLoop, ih (Nat.lt_of_succ_lt_succ h)]

/-! ### Reads -/

theorem readGives_inj {calls calls' : List Call} (h : readGives s r ms calls = readGives s r' ms' calls') :
    r = r' ∧ ms = ms' := by
  injection h with hnext
  injection hnext with _ _ hrcv _ hout
  injection hout with _ _ hms _
  exact ⟨hrcv, Option.some.inj hms⟩

/-- Every read of `bytes` gives what one read of them gives (rule R207). -/
theorem readGives_iff {bytes : List Byte} : ReadGives s bytes r ms ↔ rxRead s.cfg bytes s.rcv = (r, ms) := by
  constructor
  · intro h
    have hpoll := polledBytes_roundOf bytes
    exact Prod.ext_iff.2 (readGives_inj ((readGives_rxRead bytes s 0 [roundOf bytes] hpoll).symm.trans (h 0 _ hpoll)))
  · intro h
    have hread := readGives_rxRead bytes s
    rwa [h] at hread

/-- What a row on the line gives, every read of its bytes gives (log entry 1). -/
theorem readGives_of_row {bytes : List Byte} (hgives : LineGives s j r ms) (hrow : exec j s = readLine bytes s) :
    ReadGives s bytes r ms := by
  obtain ⟨_, -, hexec⟩ := hgives
  rw [hrow, readLine_eq_readGives] at hexec
  exact readGives_iff.2 (Prod.ext_iff.2 (readGives_inj hexec))

/-- A byte that is no data symbol empties the accumulator and delivers nothing (rules R182, R209). -/
theorem rxStep_of_not_data {b : Byte} (h : ∀ v, decode4of8 cfg b ≠ .data v) (r : Receiver) :
    rxStep cfg b r = (rxClear r, none) := by
  rcases rxStep_cases cfg b r with ⟨v, hv, -⟩ | ⟨-, hstep⟩
  · exact absurd hv (h v)
  · exact hstep

/-- A byte empties the accumulator, or its step ends with the examination of what it left there (rule R186). -/
theorem rxStep_eq_rxDeliver (cfg : Config) (b : Byte) (r : Receiver) :
    rxStep cfg b r = (rxClear r, none) ∨
      ∃ st total acc, rxStep cfg b r = rxDeliver { r with rxState := st, rxTotal := total, rxAcc := acc } := by
  rcases rxStep_cases cfg b r with ⟨v, hv, -⟩ | ⟨-, e⟩
  · rw [rxStep_of_data hv]
    rcases rxExamine_cases (accumulate r (bitsOf 6 v.toNat)) with ⟨-, e⟩ | ⟨-, -, -, e⟩ | ⟨-, -, -, e⟩
    · exact .inr ⟨_, _, _, e⟩
    · exact .inl e
    · exact .inr ⟨_, _, _, e⟩
  · exact .inl e

/-! ### Two reads in a row -/

theorem rxDeliver_rxExpectDs (r : Receiver) : (rxDeliver r).1.rxExpectDs = r.rxExpectDs := by
  rcases rxDeliver_cases r with ⟨-, e⟩ | ⟨-, -, e | ⟨_, _, -, -, e⟩⟩ <;> rw [e] <;> rfl

theorem rxStep_rxExpectDs (cfg : Config) (b : Byte) (r : Receiver) : (rxStep cfg b r).1.rxExpectDs = r.rxExpectDs := by
  rcases rxStep_eq_rxDeliver cfg b r with e | ⟨_, _, _, e⟩ <;> rw [e]
  · rfl
  · exact rxDeliver_rxExpectDs _

/-- The byte stream does not touch the data-space flag (rules R200, R390). -/
theorem rxSteps_rxExpectDs (cfg : Config) (bytes : List Byte) (r : Receiver) :
    (rxSteps cfg bytes r).1.rxExpectDs = r.rxExpectDs := by
  induction bytes generalizing r with
  | nil => rfl
  | cons b rest ih => exact (ih _).trans (rxStep_rxExpectDs cfg b r)

/-- Outside the data-space mode a read continues the one before it (rule R207). -/
theorem rxRead_append (h : r.rxExpectDs = false) (a b : List Byte) :
    rxRead cfg (a ++ b) r =
      ((rxRead cfg b (rxRead cfg a r).1).1, (rxRead cfg a r).2 ++ (rxRead cfg b (rxRead cfg a r).1).2) := by
  have hmid : (rxSteps cfg a r).1.rxExpectDs = false := (rxSteps_rxExpectDs cfg a r).trans h
  rw [rxRead_of_not_expecting h, rxRead_of_not_expecting h, rxRead_of_not_expecting hmid, rxSteps_append]

theorem readGives_append {a b : List Byte} (hds : s.rcv.rxExpectDs = false) (ha : ReadGives s a r ms)
    (hb : ReadGives { s with rcv := r } b r' ms') : ReadGives s (a ++ b) r' (ms ++ ms') := by
  rw [readGives_iff] at ha hb ⊢
  rw [rxRead_append hds, ha, hb]

/-! ### Single datagrams -/

/-- The first bit of a TIME payload is its unit (rule R105). -/
theorem ofBool_append_extract (p : Byte) : BitVec.ofBool (p.getLsbD 7) ++ p.extractLsb' 0 7 = p := by
  revert p
  decide

theorem bitVec_two_cases : ∀ n : BitVec 2, n = 0 ∨ n = 1 ∨ n = 2 ∨ n = 3 := by decide

section Waits

variable (henc : s.cfg.encOk) (hw : Waiting s.rcv)
include henc hw

/-- The four extended-POM kinds are one, by their sequence number (rules R104, R198). -/
theorem readGives_xpom (n : BitVec 2) (a b c e : Byte) :
    ReadGives s (wireXpom s.cfg n a b c e) (delivered s.rcv 36) [.xpom n a b c e] := by
  obtain ⟨-, hwaiting, -⟩ := lineRowsAreReads
  obtain ⟨-, -, -, -, -, h0, h1, h2, h3, -⟩ := hwaiting s henc hw
  rcases bitVec_two_cases n with rfl | rfl | rfl | rfl
  · exact readGives_of_row (h0 a b c e) rfl
  · exact readGives_of_row (h1 a b c e) rfl
  · exact readGives_of_row (h2 a b c e) rfl
  · exact readGives_of_row (h3 a b c e) rfl

/-- A long address in two halves: the first is never 0, so the second finds it cached (rules R190, R191). -/
theorem readGives_longAddress (a : BitVec 14) :
    ReadGives s (dg12 s.cfg 1 (0b10#2 ++ a.extractLsb' 8 6) ++ dg12 s.cfg 2 (a.extractLsb' 0 8)) (delivered s.rcv 12)
      [.adrHigh (0b10#2 ++ a.extractLsb' 8 6), .adrLow (a.extractLsb' 0 8) a true] := by
  obtain ⟨-, -, hds⟩ := id hw
  have hcached : ∀ x : BitVec 6, 0b10#2 ++ x ≠ 0#8 := by decide
  have haddress : (0b10#2 ++ a.extractLsb' 8 6).extractLsb' 0 6 ++ a.extractLsb' 0 8 = a := by
    rw [extract_append_low (m := 2) (n := 6)]
    exact append_extract (m := 6) (n := 8) a
  have hlow := dgAdrLow_paired
    (s := { s with rcv := { s.rcv with rxTotal := 12, rxAdrHigh := 0b10#2 ++ a.extractLsb' 8 6 } }) henc hw
    (hcached _) (a.extractLsb' 0 8)
  rw [haddress] at hlow
  exact readGives_append hds (readGives_of_lineGives (dgAdrHigh_waiting henc hw _) rfl)
    (readGives_of_lineGives hlow rfl)

end Waits

/-! ### The address cache -/

/-- The cached high half after a byte that completed the message, if any (rule R199). -/
def cacheOf (cached : Byte) : Option Msg → Byte
  | none => cached
  | some (.adrHigh raw) => raw
  | some _ => 0

/-- The cache kept after a message is its own payload or nothing (rules R190, R199). -/
theorem cacheAfter_eq_cacheOf {k : Kind} {p : Nat} {frame : List Bool} {hi : Byte} {m : Msg}
    (h : construct k p frame hi = some m) (cached : Byte) : cacheAfter k p = cacheOf cached (some m) := by
  cases k with
  | srq | dataSpace => cases h
  | adrLow =>
    obtain rfl : adrLowMsg hi p = m := Option.some.inj h
    unfold adrLowMsg
    split <;> rfl
  | _ =>
    cases h
    rfl

theorem rxDeliver_rxAdrHigh (r : Receiver) :
    (rxDeliver r).1.rxAdrHigh = cacheOf r.rxAdrHigh (rxDeliver r).2 := by
  rcases rxDeliver_cases r with ⟨-, e⟩ | ⟨-, -, e | ⟨k, m, -, hm, e⟩⟩ <;> rw [e]
  · rfl
  · rfl
  · exact cacheAfter_eq_cacheOf hm _

theorem rxStep_rxAdrHigh (cfg : Config) (b : Byte) (r : Receiver) :
    (rxStep cfg b r).1.rxAdrHigh = cacheOf r.rxAdrHigh (rxStep cfg b r).2 := by
  rcases rxStep_eq_rxDeliver cfg b r with e | ⟨_, _, _, e⟩ <;> rw [e]
  · rfl
  · exact rxDeliver_rxAdrHigh _

/-! ### Kinds that are never delivered -/

/-- The kinds that only a data-space read or no read at all delivers (rule R210). -/
def unreceivableKinds : List Kind := [.srq, .stat2, .drivingInfo, .block, .dataSpace]

/-- The byte stream can deliver the message (rule R210). -/
def isReceivable : Msg → Bool
  | .srq _ _ => false
  | .stat2 _ => false
  | .drivingInfo _ => false
  | .block _ => false
  | .dataSpace _ _ _ _ _ => false
  | _ => true

theorem construct_isReceivable {k : Kind} {p : Nat} {frame : List Bool} {hi : Byte} {m : Msg}
    (hk : k ∉ unreceivableKinds) (h : construct k p frame hi = some m) : isReceivable m = true := by
  cases k with
  | srq | stat2 | drivingInfo | block | dataSpace => exact absurd (by decide) hk
  | adrLow =>
    obtain rfl : adrLowMsg hi p = m := Option.some.inj h
    unfold adrLowMsg
    split <;> rfl
  | _ =>
    cases h
    rfl

/-- A total the length table gives in some context resolves to no such kind, unless the context has changed since and
the total is 12 (rules R183, R184, R210). -/
theorem resolve_receivable {id : BitVec 4} {before now : RxContext} {k : Kind}
    (h : before = now ∨ 12 < 4 + expectedBits id before)
    (hres : resolve id (4 + expectedBits id before) now = some k) :
    k ∉ unreceivableKinds := by
  have hall : ∀ k ∈ unreceivableKinds, ∀ id : BitVec 4, (before = now ∨ 12 < 4 + expectedBits id before) →
      resolve id (4 + expectedBits id before) now ≠ some k := by
    cases before <;> cases now <;> decide
  exact fun hk => hall k hk id h hres

theorem totalOk_iff {acc : List Bool} {total : Nat} :
    TotalOk acc total ↔ ∃ ctx, total = 4 + expectedBits (rxId acc) ctx := by
  constructor
  · rintro (h | h | h)
    · exact ⟨.mobile, h⟩
    · exact ⟨.stationary, h⟩
    · exact ⟨.unknown, h⟩
  · rintro ⟨ctx, rfl⟩
    exact totalOk_expectedBits acc ctx

theorem rxDeliver_receivable {ctx : RxContext} {m : Msg}
    (htotal : r.rxTotal.toNat = 4 + expectedBits (rxId r.rxAcc) ctx) (h : ctx = r.rxContext ∨ 12 < r.rxTotal.toNat)
    (hm : (rxDeliver r).2 = some m) : isReceivable m = true := by
  rcases rxDeliver_cases r with ⟨-, e⟩ | ⟨-, -, e | ⟨k, m', hres, hcons, e⟩⟩ <;> rw [e] at hm
  · cases hm
  · cases hm
  · cases hm
    rw [htotal] at hres h
    exact construct_isReceivable (resolve_receivable h hres) hcons

/-- A total of 12 is that of the present context, as the datagram is complete with the symbol that fixed it. -/
theorem rxStep_receivable (hr : AccumulatorOk r) {b : Byte} {m : Msg} (hm : (rxStep cfg b r).2 = some m) :
    isReceivable m = true := by
  rcases rxStep_cases cfg b r with ⟨v, hv, -⟩ | ⟨-, e⟩
  · rw [rxStep_of_data hv] at hm
    cases hst : r.rxState with
    | idle =>
      rcases rxExamine_cases (accumulate r (bitsOf 6 v.toNat)) with
        ⟨-, e⟩ | ⟨-, -, -, e⟩ | ⟨-, -, -, e⟩ <;> rw [e] at hm
      · rw [rxDeliver_of_idle (r := accumulate r _) hst] at hm
        cases hm
      · cases hm
      · exact rxDeliver_receivable (toNat_rxTotal _ _) (.inl rfl) hm
    | reading =>
      obtain ⟨-, h12, hlt, htotal⟩ : r.rxAcc.length % 6 = 0 ∧ 12 ≤ r.rxAcc.length ∧
          r.rxAcc.length < r.rxTotal.toNat ∧ TotalOk r.rxAcc r.rxTotal.toNat := by
        simpa only [AccumulatorOk, hst] using hr
      obtain ⟨ctx, hctx⟩ := totalOk_iff.1 htotal
      rw [← rxId_append (show 4 ≤ r.rxAcc.length by omega) (bitsOf 6 v.toNat)] at hctx
      rw [rxExamine_of_reading (r := accumulate r _) hst] at hm
      exact rxDeliver_receivable (r := accumulate r _) hctx (.inr (Nat.lt_of_le_of_lt h12 hlt)) hm
  · rw [e] at hm
    cases hm

theorem rxSteps_receivable (hr : AccumulatorOk r) {bytes : List Byte} {m : Msg} (hm : m ∈ (rxSteps cfg bytes r).2) :
    isReceivable m = true := by
  induction bytes generalizing r with
  | nil => cases hm
  | cons b rest ih =>
    rcases List.mem_append.1 hm with hfirst | hlater
    · exact rxStep_receivable hr (Option.mem_toList.1 hfirst)
    · exact ih (rxStep_ok hr b) hlater

/-! ### The data-space mode -/

theorem dataSymbols_map_sym (henc : cfg.encOk) (symbols : List (BitVec 6)) :
    dataSymbols cfg (symbols.map (sym cfg)) = some symbols := by
  induction symbols with
  | nil => rfl
  | cons v vs ih => simp [dataSymbols, decode4of8_sym henc, ih]

/-- One byte that is no data symbol spoils the whole read (rule R205). -/
theorem dataSymbols_of_not_data {bytes : List Byte} (h : ∃ b ∈ bytes, ∀ v, decode4of8 cfg b ≠ .data v) :
    dataSymbols cfg bytes = none := by
  obtain ⟨b, hmem, hb⟩ := h
  induction bytes with
  | nil => cases hmem
  | cons x rest ih =>
    rw [dataSymbols]
    split
    · next v hv =>
      have hrest : b ∈ rest := (List.mem_cons.1 hmem).resolve_left fun e => hb v (e ▸ hv)
      rw [ih hrest, Option.map_none]
    · rfl

theorem length_dataSymbols {bytes : List Byte} {symbols : List (BitVec 6)} (h : dataSymbols cfg bytes = some symbols) :
    symbols.length = bytes.length := by
  induction symbols generalizing bytes with
  | nil => rw [dataSymbols_eq_nil h, List.length_nil, List.length_nil]
  | cons v vs ih =>
    obtain ⟨b, rest, rfl, -, hrest⟩ := dataSymbols_eq_cons h
    rw [List.length_cons, List.length_cons, ih hrest]

/-- A read that expects a data-space response is decided by the bytes its symbols spell (rules R200 to R204). -/
theorem readGives_expecting (hds : s.rcv.rxExpectDs = true) {bytes : List Byte} {symbols : List (BitVec 6)}
    (h : dataSymbols s.cfg bytes = some symbols) :
    ReadGives s bytes (dataSpaceDone s.rcv) (dataSpaceMsg s.rcv.rxExpectDsNum (octets (unpack symbols))).toList := by
  refine readGives_iff.2 ?_
  rw [rxRead_of_expecting hds, rxDataSpace, h]
  rfl

theorem readGives_expecting_none (hds : s.rcv.rxExpectDs = true) {bytes : List Byte}
    (h : dataSymbols s.cfg bytes = none) : ReadGives s bytes (dataSpaceDone s.rcv) [] := by
  refine readGives_iff.2 ?_
  rw [rxRead_of_expecting hds, rxDataSpace, h]
  rfl

/-- The length byte counts by its low five bits; the CRC covers it as received (rules R202, R203). -/
theorem dataSpaceMsg_of_length (num : Byte) {lenByte : Byte} {data : List Byte}
    (hlen : (lenByte &&& 0x1F#8).toNat = data.length) (h16 : data.length ≤ 16) (crc : Byte) :
    dataSpaceMsg num (responseBytes lenByte data crc) =
      some (.dataSpace num lenByte data crc (decide (crc8 (lenByte :: data) num = crc))) := by
  have hmask : (lenByte &&& dsLenMask).toNat = data.length := hlen
  have hcrc : dataSpaceCrcValid num lenByte data crc = decide (crc8 (lenByte :: data) num = crc) := rfl
  simp only [responseBytes, dataSpaceMsg, List.cons_append, hmask, if_neg (Nat.not_lt.2 h16)]
  simp [hcrc]

/-- A length above 16, or another number of bytes than the length says, is no response (rule R205). -/
theorem dataSpaceMsg_of_wrong_length (num : Byte) {lenByte : Byte} {more : List Byte}
    (h : 16 < (lenByte &&& 0x1F#8).toNat ∨ more.length ≠ (lenByte &&& 0x1F#8).toNat + 1) :
    dataSpaceMsg num (lenByte :: more) = none := by
  by_cases hlong : dsMaxPayload < (lenByte &&& dsLenMask).toNat
  · exact if_pos hlong
  · have hcount : more.length ≠ (lenByte &&& dsLenMask).toNat + 1 := h.resolve_left hlong
    exact (if_neg hlong).trans (if_pos fun e => hcount (Nat.succ.inj e))

/-! ### From the sender to the receiver -/

section Crossing

variable (hcfg : d.cfg = s.cfg) (hroom : Room d.cfg d.dec)
include hcfg

/-- A send crosses where what it enqueues are the bytes that the receiver reads as the message. -/
theorem crosses_of_queues (wire : Config → Entry) {dec : Decoder} {e1 e2 : List Entry} {m : Msg}
    (hsend : exec i d = decoderBecomes d dec) (h1 : dec.ch1Q = d.dec.ch1Q ++ e1) (h2 : dec.ch2Q = d.dec.ch2Q ++ e2)
    (hwire : (e1 ++ e2).flatten = wire d.cfg) (hgives : ReadGives s (wire s.cfg) r [m]) : Crosses i d s m :=
  ⟨{ d with dec := dec, out := {} }, e1, e2, hsend, h1, h2, r, by rwa [hwire, hcfg]⟩

include hroom

/-- A send on channel 1. -/
theorem crosses_one (wire : Config → Entry) {m : Msg}
    (hsend : exec i d = onDecoder (fun cfg => enqueue cfg .one (wire cfg)) d)
    (hgives : ReadGives s (wire s.cfg) r [m]) : Crosses i d s m := by
  have hdec := enqueue_one_of_lt (wire d.cfg) hroom.1
  exact crosses_of_queues hcfg wire (e1 := [wire d.cfg]) (e2 := []) hsend (congrArg Decoder.ch1Q hdec)
    ((congrArg Decoder.ch2Q hdec).trans (List.append_nil _).symm) (by simp) hgives

/-- A send on channel 2. -/
theorem crosses_two (wire : Config → Entry) {m : Msg}
    (hsend : exec i d = onDecoder (fun cfg => enqueue cfg .two (wire cfg)) d)
    (hgives : ReadGives s (wire s.cfg) r [m]) : Crosses i d s m := by
  have hdec := enqueue_two_of_lt (wire d.cfg) hroom.2
  exact crosses_of_queues hcfg wire (e1 := []) (e2 := [wire d.cfg]) hsend
    ((congrArg Decoder.ch1Q hdec).trans (List.append_nil _).symm) (congrArg Decoder.ch2Q hdec) (by simp) hgives

/-- A send split over both channels. -/
theorem crosses_split (wire : Config → Entry) {m : Msg}
    (hsend : exec i d = onDecoder (fun cfg => enqueueSplit cfg (wire cfg)) d)
    (hgives : ReadGives s (wire s.cfg) r [m]) : Crosses i d s m := by
  have hdec := enqueueSplit_of_lt (wire d.cfg) hroom.1 hroom.2
  exact crosses_of_queues hcfg wire (e1 := [(wire d.cfg).take 2]) (e2 := [(wire d.cfg).drop 2]) hsend
    (congrArg Decoder.ch1Q hdec) (congrArg Decoder.ch2Q hdec) (by simp) hgives

/-- A step of the rotation (rule R226). -/
theorem crosses_rotation (wire : Config → Entry) {a : BitVec 14} {long : Bool} {m : Msg}
    (hwire : rotationBytes d.cfg a long d.dec = wire d.cfg) (hgives : ReadGives s (wire s.cfg) r [m]) :
    Crosses (.opSendAddress a long) d s m := by
  have hdec := enqueue_one_of_lt (rotationBytes d.cfg a long d.dec) hroom.1
  exact crosses_of_queues hcfg wire (dec := sendAddress d.cfg a long d.dec) (e1 := [rotationBytes d.cfg a long d.dec])
    (e2 := []) rfl (congrArg Decoder.ch1Q hdec) ((congrArg Decoder.ch2Q hdec).trans (List.append_nil _).symm)
    (by simpa using hwire) hgives

end Crossing

/-- A sequence number of two bits is in range (rule R232). -/
theorem sendXpom_setWidth (n : BitVec 2) (a b c e : Byte) :
    (fun cfg => sendXpom cfg (n.setWidth 8) a b c e) = fun cfg => enqueue cfg .two (wireXpom cfg n a b c e) := by
  have hseq : ∀ n : BitVec 2, ¬ xpomSeqMax < (n.setWidth 8).toNat ∧ (n.setWidth 8).setWidth 2 = n := by decide
  obtain ⟨hrange, hfield⟩ := hseq n
  funext cfg dec
  rw [sendXpom, if_neg hrange, hfield]

/-- A time of seven bits is in range (rule R236). -/
theorem sendTime_setWidth (v : BitVec 7) (u : Bool) :
    (fun cfg => sendTime cfg (v.setWidth 8) u) = fun cfg => enqueue cfg .two (wireTime cfg u v) := by
  have hvalue : ∀ v : BitVec 7, ¬ timeMax < (v.setWidth 8).toNat ∧ (v.setWidth 8).setWidth 7 = v := by decide
  obtain ⟨hrange, hfield⟩ := hvalue v
  funext cfg dec
  rw [sendTime, if_neg hrange, hfield]

/-- A number of seconds of eight bits is in range (rule R241). -/
theorem sendRerail_setWidth (v : Byte) :
    (fun cfg => sendRerail cfg (v.setWidth 16)) = fun cfg => enqueue cfg .two (wireRerail cfg v) := by
  have hseconds : ∀ v : Byte, ¬ rerailMax < (v.setWidth 16).toNat ∧ (v.setWidth 16).setWidth 8 = v := by decide
  obtain ⟨hrange, hfield⟩ := hseconds v
  funext cfg dec
  rw [sendRerail, if_neg hrange, hfield]

/-- The low half of a short address is the address (rules R105, R191, R226). -/
theorem adrLowPayload_short (a : BitVec 7) :
    adrLowPayload (a.setWidth 14) false = a.setWidth 8 ∧ (a.setWidth 8).setWidth 14 = a.setWidth 14 := by
  revert a
  decide

end Lemmas

/-! ### The obligations -/

/-- Settles O30: each control is one assignment to the receiver half. -/
theorem receiverControls : Obligations.ReceiverControls :=
  ⟨fun _ _ => rfl, fun _ _ => rfl, fun _ => rfl, fun _ => ⟨rfl, rfl, rfl, rfl, fun _ => rfl, rfl⟩⟩

/-- Settles O32: the rows of one byte, as every read of their bytes. -/
theorem readDeliversShortDatagrams : Obligations.ReadDeliversShortDatagrams := by
  obtain ⟨-, -, hmobile, hother, -⟩ := lineRowsAreReads
  intro s henc hw p
  have htimeBytes : lineBytes s.cfg (.dgTime (p.getLsbD 7) (p.extractLsb' 0 7)) = some (dg12 s.cfg 5 p) :=
    congrArg (fun x => some (dg12 s.cfg 5 x)) (ofBool_append_extract p)
  refine ⟨readGives_of_lineGives (dgPom_waiting henc hw p) rfl, fun hctx => ?_, fun hctx => ?_⟩
  · obtain ⟨-, hstat4, -, -, hstat1, htime, herror⟩ := hother s henc hw hctx
    exact ⟨readGives_of_lineGives (hstat4 p) rfl, readGives_of_lineGives (hstat1 p) rfl,
      readGives_of_lineGives (htime _ _) htimeBytes, readGives_of_lineGives (herror p) rfl⟩
  · obtain ⟨-, -, -, hbasic, -, htime, herror⟩ := hmobile s henc hw hctx
    exact ⟨readGives_of_lineGives (hbasic p) rfl, readGives_of_lineGives (htime _ _) htimeBytes,
      readGives_of_lineGives (herror p) rfl⟩

/-- Settles O33: a payload is the concatenation of its fields, so the datagram is the row of those fields. -/
theorem readDeliversLongDatagrams : Obligations.ReadDeliversLongDatagrams := by
  intro s henc hw
  refine ⟨fun hctx p => ?_, fun p => ?_, fun n p => ?_, fun p => ?_,
    fun p => readGives_of_lineGives (dgRerail_waiting henc hw p) rfl, fun p => ?_,
    fun f n c crc => readGives_of_lineGives (dgDecoderState_waiting henc hw f n c crc) rfl⟩
  · exact readGives_of_lineGives (dgExt_mobile henc hw hctx _ _)
      (congrArg (fun x => some (dg18 s.cfg 3 x)) (append_extract (m := 6) (n := 8) p))
  · exact readGives_of_lineGives (dgDyn_waiting henc hw _ _)
      (congrArg (fun x => some (dg18 s.cfg 7 x)) (append_extract (m := 8) (n := 6) p))
  · have hid : ∀ n : BitVec 2, 0b10#2 ++ n = 8#4 + n.setWidth 4 := by decide
    have hp : p.extractLsb' 24 8 ++ p.extractLsb' 16 8 ++ p.extractLsb' 8 8 ++ p.extractLsb' 0 8 = p := by
      rw [extract_append_extract (n := 8) (m := 8) p 16, extract_append_extract (n := 8) (m := 16) p 8]
      exact append_extract (m := 24) (n := 8) p
    have hread := readGives_xpom henc hw n (p.extractLsb' 24 8) (p.extractLsb' 16 8) (p.extractLsb' 8 8)
      (p.extractLsb' 0 8)
    rwa [wireXpom, hp, encodeDatagram_eq_dg36, hid] at hread
  · exact readGives_of_lineGives (dgCvAuto_waiting henc hw _ _)
      (congrArg (fun x => some (dg36 s.cfg 12 x)) (append_extract (m := 24) (n := 8) p))
  · exact readGives_of_lineGives (dgDecoderUnique_waiting henc hw _ _)
      (congrArg (fun x => some (dg48Head s.cfg 15 x ++ dg48Tail s.cfg x)) (append_extract (m := 12) (n := 32) p))

/-- Settles O34: the rows of the two halves; both halves are two reads in a row. -/
theorem addressHalvesPair : Obligations.AddressHalvesPair :=
  fun _ henc hw => ⟨fun p => readGives_of_lineGives (dgAdrHigh_waiting henc hw p) rfl,
    fun h p => readGives_of_lineGives (dgAdrLow_unpaired henc hw h p) rfl,
    fun h p => readGives_of_lineGives (dgAdrLow_paired henc hw h p) rfl, readGives_longAddress henc hw⟩

/-- Settles O35: only the delivery at the end of a step writes the cache. -/
theorem messagesInvalidateTheCache : Obligations.MessagesInvalidateTheCache := by
  intro cfg b r
  have hcache := rxStep_rxAdrHigh cfg b r
  revert hcache
  cases (rxStep cfg b r).2 with
  | none => exact id
  | some m => cases m <;> exact id

/-- Settles O36: the byte is one step between the bytes before it and those after it. -/
theorem nonDataBytesResynchronise : Obligations.NonDataBytesResynchronise := by
  intro s before b after hds hb timeout line hpoll first later
  refine readGives_iff.2 ?_ timeout line hpoll
  rw [rxRead_of_not_expecting hds, rxSteps_append, rxSteps_cons, rxStep_of_not_data hb]
  rfl

/-- Settles O38: the second read goes on from the receiver half the first one leaves. -/
theorem readsContinueOneAnother : Obligations.ReadsContinueOneAnother := by
  refine ⟨fun s timeout line hds hpoll => ?_, fun s t1 l1 t2 l2 t l hds hpoll => ?_⟩
  · exact readGives_iff.2 (rxRead_of_not_expecting hds []) timeout line hpoll
  · have hone := readGives_rxRead (polledBytes (poll t l)) s t l rfl
    rw [hpoll, rxRead_append hds] at hone
    exact ⟨_, _, _, _, _, rfl, rfl, hone, rfl, rfl, rfl, rfl⟩

/-- Settles O39: the rounds by induction on those given, a round by induction on its count. -/
theorem pollStopsAtTheTimeout : Obligations.PollStopsAtTheTimeout := by
  refine ⟨fun timeout first rest => ?_, fun _ => ⟨rfl, rfl⟩, fun x h => ?_, fun x h => ?_, fun rounds => ?_⟩
  · rw [poll, pollRounds_eq_takeWhile]
  · simp [pollCalls, roundReads, readLoop_of_le h, Function.comp_def]
  · simp [pollCalls, roundReads, readLoop_of_lt h, Function.comp_def]
  · simp [polledBytes, pollCalls, List.reduceOption, List.filterMap_flatMap, List.filterMap_map]

/-- Settles O40: what is resolved in a step is receivable, and every step keeps the accumulator in range. -/
theorem kindsNeverDelivered : Obligations.KindsNeverDelivered := by
  intro cfg bytes r hr m hm
  have hreceivable := rxSteps_receivable hr hm
  cases m with
  | srq | stat2 | drivingInfo | block | dataSpace => cases hreceivable
  | _ => trivial

/-- Settles O41: the padding does not make a byte, so the bytes are the response's. -/
theorem dataSpaceReadDelivers : Obligations.DataSpaceReadDelivers := by
  intro s lenByte data crc pad symbols henc hds hlen h16 hpad hbits
  have hread := readGives_expecting hds (dataSymbols_map_sym henc symbols)
  rwa [hbits, octets_bitsOfBytes _ hpad, dataSpaceMsg_of_length _ hlen h16] at hread

/-- Settles O42: the symbols do not decode, or spell no byte, or spell no response. -/
theorem dataSpaceReadFails : Obligations.DataSpaceReadFails := by
  intro s henc hds
  refine ⟨fun bytes h => readGives_expecting_none hds (dataSymbols_of_not_data h), fun bytes h => ?_,
    fun symbols lenByte more hbytes h => ?_⟩
  · cases hsym : dataSymbols s.cfg bytes with
    | none => exact readGives_expecting_none hds hsym
    | some symbols =>
      have hlen := length_dataSymbols hsym
      have hread := readGives_expecting hds hsym
      rwa [octets_short (by rw [length_unpack]; omega)] at hread
  · have hread := readGives_expecting hds (dataSymbols_map_sym henc symbols)
    rwa [hbytes, dataSpaceMsg_of_wrong_length _ h] at hread

/-- Settles O44: what a send enqueues are the wire bytes of a row on the line. -/
theorem sentMessagesAreReceived : Obligations.SentMessagesAreReceived := by
  obtain ⟨-, -, hmobile, hother, -⟩ := lineRowsAreReads
  intro d s hcfg henc hroom hw
  refine ⟨fun v => crosses_two hcfg hroom (wirePom · v) rfl (readGives_of_row (dgPom_waiting henc hw v) rfl),
    fun v x => crosses_two hcfg hroom (wireDyn · v x) rfl (readGives_of_row (dgDyn_waiting henc hw v x) rfl),
    fun n a b c e => crosses_two hcfg hroom (wireXpom · n a b c e)
      (congrArg (onDecoder · d) (sendXpom_setWidth n a b c e)) (readGives_xpom henc hw n a b c e),
    fun cv v => crosses_two hcfg hroom (wireCvAuto · cv v) rfl (readGives_of_row (dgCvAuto_waiting henc hw cv v) rfl),
    fun m p => crosses_split hcfg hroom (wireDecoderUnique · m p) rfl
      (readGives_of_row (dgDecoderUnique_waiting henc hw m p) rfl),
    fun f n c => ⟨decoderStateCrc f n c, ?_⟩,
    fun v => crosses_two hcfg hroom (wireRerail · v)
      (congrArg (onDecoder · d) (sendRerail_setWidth v)) (readGives_of_row (dgRerail_waiting henc hw v) rfl),
    fun hctx => ?_, fun hctx => ?_, fun hrot a => ?_, fun hrot hcache a => ?_⟩
  · have hrow := dgDecoderState_waiting henc hw f n c (decoderStateCrc f n c)
    rw [decide_eq_true (decoderStateCrc_eq f n c).symm] at hrow
    exact crosses_split hcfg hroom (fun cfg => wireDecoderState cfg f n c (decoderStateCrc f n c)) rfl
      (readGives_of_row hrow rfl)
  · obtain ⟨hext, -, -, hbasic, -⟩ := hmobile s henc hw hctx
    exact ⟨fun t p => crosses_two hcfg hroom (wireExt · t p) rfl (readGives_of_row (hext t p) rfl),
      fun v => crosses_one hcfg hroom (wireBasicInfo · v) rfl (readGives_of_row (hbasic v) rfl)⟩
  · obtain ⟨-, hstat4, -, -, hstat1, htime, herror⟩ := hother s henc hw hctx
    exact ⟨fun v => crosses_two hcfg hroom (wireStat1 · v) rfl (readGives_of_row (hstat1 v) rfl),
      fun v => crosses_two hcfg hroom (wireStat4 · v) rfl (readGives_of_row (hstat4 v) rfl),
      fun v => crosses_two hcfg hroom (wireError · v) rfl (readGives_of_row (herror v) rfl),
      fun v u => crosses_two hcfg hroom (wireTime · u v)
        (congrArg (onDecoder · d) (sendTime_setWidth v u)) (readGives_of_row (htime u v) rfl)⟩
  · exact crosses_rotation hcfg hroom (wireAdrHigh · (0b10#2 ++ a.extractLsb' 8 6)) (by rw [rotationBytes, hrot]; rfl)
      (readGives_of_row (dgAdrHigh_waiting henc hw _) rfl)
  · obtain ⟨hpayload, haddress⟩ := adrLowPayload_short a
    have hrow := dgAdrLow_unpaired henc hw hcache (a.setWidth 8)
    rw [haddress] at hrow
    exact crosses_rotation hcfg hroom (wireAdrLow · (a.setWidth 8))
      (by rw [rotationBytes, hrot]; exact congrArg (wireAdrLow d.cfg) hpayload)
      (readGives_of_row hrow rfl)

end Sys2Proof.RxEngine

/-! PROOFS. The TX Engine (42_tx_engine.md): the sends on one channel (rules R230 to R238, R241 to R246), the rotation
of the address datagrams (rules R226, R227), and the cutout flush (rules R260 to R262). -/

namespace Sys2Proof.TxEngine

open Sys2Proof.Machine Sys2Proof.Claims Sys2Proof.Memory Sys2Proof.Encoding Sys2Proof.Line

section Lemmas

variable {i : Instr} {code : Byte} {wire entry : Config → Entry}

/-! ### Host operations that send -/

theorem enqueue_two_eq_push2 (cfg : Config) (e : Entry) (d : Decoder) : enqueue cfg .two e d = push2 cfg e d := by
  unfold push2
  split
  · next h => exact enqueue_two_of_lt e h
  · next h => exact enqueue_two_of_full e (Nat.le_of_not_lt h)

/-- A host operation that works on the decoder half has there the effect of any function equal to its own. -/
theorem hostOpIs_of_eq {f g : Config → Decoder → Decoder} (hcode : ∀ cfg, hostCode cfg i = some code)
    (hexec : ∀ s, exec i s = onDecoder f s) (h : ∀ cfg d, f cfg d = g cfg d) : HostOpIs code i g :=
  ⟨hcode, fun s => (hexec s).trans (congrArg (decoderBecomes s) (h s.cfg s.dec))⟩

/-- A send on channel 1, by the wire bytes of its datagram. -/
theorem hostOpIs_push1 (hcode : ∀ cfg, hostCode cfg i = some code)
    (hexec : ∀ s, exec i s = onDecoder (fun cfg => enqueue cfg .one (wire cfg)) s)
    (hwire : ∀ cfg, wire cfg = entry cfg) : HostOpIs code i fun cfg => push1 cfg (entry cfg) :=
  hostOpIs_of_eq hcode hexec fun cfg d => by rw [hwire, enqueue_one_eq_push1]

/-- A send on channel 2, by the wire bytes of its datagram. -/
theorem hostOpIs_push2 (hcode : ∀ cfg, hostCode cfg i = some code)
    (hexec : ∀ s, exec i s = onDecoder (fun cfg => enqueue cfg .two (wire cfg)) s)
    (hwire : ∀ cfg, wire cfg = entry cfg) : HostOpIs code i fun cfg => push2 cfg (entry cfg) :=
  hostOpIs_of_eq hcode hexec fun cfg d => by rw [hwire, enqueue_two_eq_push2]

/-! ### Range checks -/

/-- The model refuses above the bound what the statements accept up to it. -/
theorem ite_lt_eq_ite_le {α : Type} {n bound : Nat} {x y d : α} (h : n ≤ bound → x = y) :
    (if bound < n then d else x) = if n ≤ bound then y else d := by
  by_cases hn : n ≤ bound
  · rw [if_neg (Nat.not_lt.2 hn), if_pos hn, h hn]
  · rw [if_pos (Nat.lt_of_not_le hn), if_neg hn]

/-- The ID of XPOM is 8 plus the sequence number (rule R104). -/
theorem xpomId_eq (seq : Byte) : seq.toNat ≤ 3 → 0b10#2 ++ seq.setWidth 2 = 8#4 + seq.setWidth 4 := by
  revert seq
  decide

theorem sendTime_eq (cfg : Config) (value : Byte) (unit : Bool) (d : Decoder) :
    sendTime cfg value unit d =
      if value.toNat ≤ 127 then push2 cfg (dg12 cfg 5 (BitVec.ofBool unit ++ value.extractLsb' 0 7)) d else d := by
  refine ite_lt_eq_ite_le fun _ => ?_
  rw [enqueue_two_eq_push2, wireTime, BitVec.setWidth_eq_extractLsb' (x := value) (by decide)]
  exact congrArg (push2 cfg · d) (encodeDatagram_eq_dg12 cfg 5 _)

theorem sendXpom_eq (cfg : Config) (seq d0 d1 d2 d3 : Byte) (d : Decoder) :
    sendXpom cfg seq d0 d1 d2 d3 d =
      if seq.toNat ≤ 3 then push2 cfg (dg36 cfg (8#4 + seq.setWidth 4) (d0 ++ d1 ++ d2 ++ d3)) d else d := by
  refine ite_lt_eq_ite_le fun hseq => ?_
  rw [enqueue_two_eq_push2, wireXpom, xpomId_eq seq hseq]
  exact congrArg (push2 cfg · d) (encodeDatagram_eq_dg36 cfg _ _)

theorem sendRerail_eq (cfg : Config) (seconds : BitVec 16) (d : Decoder) :
    sendRerail cfg seconds d =
      if seconds.toNat ≤ 255 then push2 cfg (dg12 cfg 14 (seconds.extractLsb' 0 8)) d else d := by
  refine ite_lt_eq_ite_le fun _ => ?_
  rw [enqueue_two_eq_push2, wireRerail, BitVec.setWidth_eq_extractLsb' (x := seconds) (by decide),
    encodeDatagram_eq_dg12]

theorem sendServiceRequest_eq (cfg : Config) (address : BitVec 16) (ext : Bool) (d : Decoder) :
    sendServiceRequest cfg address ext d =
      if address.toNat ≤ 2047 then
        push1 cfg [sym cfg (BitVec.ofBool ext ++ address.extractLsb' 6 5), sym cfg (address.extractLsb' 0 6)] d
      else d := by
  refine ite_lt_eq_ite_le fun _ => ?_
  rw [enqueue_one_eq_push1, wireSrq_eq, BitVec.extractLsb'_setWidth_of_le (by decide),
    BitVec.extractLsb'_setWidth_of_le (by decide)]

/-! ### The rotation -/

/-- The rotation step after `n` calls from step 0 (rule R226). -/
def stepAfter (en : Bool) (n : Nat) : Fin 3 := Fin.ofNat 3 (n % (if en then 3 else 2))

theorem val_stepAfter (en : Bool) (n : Nat) : (stepAfter en n).val = n % (if en then 3 else 2) := by
  have hsteps : ∀ en : Bool, 0 < (if en then 3 else 2) ∧ (if en then 3 else 2) ≤ 3 := by decide
  obtain ⟨hpos, hle⟩ := hsteps en
  exact Nat.mod_eq_of_lt ((Nat.mod_lt n hpos).trans_le hle)

/-- One more call moves on by one step. -/
theorem stepAfter_succ (en : Bool) (n : Nat) :
    Fin.ofNat 3 (((stepAfter en n).val + 1) % (if en then 3 else 2)) = stepAfter en (n + 1) := by
  rw [val_stepAfter, Nat.mod_add_mod, stepAfter]

/-- The decoder half after `n` accepted calls of `sendAddress` from step 0 (rule R226). -/
def rotated (cfg : Config) (a : BitVec 14) (long : Bool) (d : Decoder) (n : Nat) : Decoder :=
  { d with
    rotIndex := stepAfter d.extInfoEnabled n
    ch1Q := d.ch1Q ++ (List.range n).map fun k =>
      rotationDatagram cfg a long { d with rotIndex := stepAfter d.extInfoEnabled k } }

variable {cfg : Config} {a : BitVec 14} {long : Bool} {d : Decoder}

theorem rotated_zero (h : d.rotIndex = 0) : rotated cfg a long d 0 = d := by
  have hstep : stepAfter d.extInfoEnabled 0 = d.rotIndex := by rw [stepAfter, Nat.zero_mod, h]; rfl
  simp [rotated, hstep]

/-- With room for one more entry, one more call appends the datagram of its step. -/
theorem rotate_rotated {n : Nat} (h : d.ch1Q.length + n < cfg.ch1Depth) :
    rotate cfg a long (rotated cfg a long d n) = rotated cfg a long d (n + 1) := by
  have hroom : (rotated cfg a long d n).ch1Q.length < cfg.ch1Depth := by simpa [rotated] using h
  have hqueue : (rotated cfg a long d (n + 1)).ch1Q =
      (rotated cfg a long d n).ch1Q ++ [rotationDatagram cfg a long (rotated cfg a long d n)] := by
    simp only [rotated, List.range_succ, List.map_append, List.append_assoc]
    rfl
  calc rotate cfg a long (rotated cfg a long d n)
    _ = { d with
          rotIndex := Fin.ofNat 3 (((stepAfter d.extInfoEnabled n).val + 1) % (if d.extInfoEnabled then 3 else 2))
          ch1Q := (rotated cfg a long d n).ch1Q ++ [rotationDatagram cfg a long (rotated cfg a long d n)] } := by
      rw [rotate, push1, if_pos hroom]
      rfl
    _ = rotated cfg a long d (n + 1) := by
      rw [stepAfter_succ, ← hqueue]
      rfl

/-- The datagrams go out in order, by induction on the calls. -/
theorem iterate_rotate (h0 : d.rotIndex = 0) {n : Nat} (h : d.ch1Q.length + n ≤ cfg.ch1Depth) :
    (rotate cfg a long)^[n] d = rotated cfg a long d n := by
  induction n with
  | zero => exact (rotated_zero h0).symm
  | succ n ih => rw [Function.iterate_succ_apply', ih (by omega), rotate_rotated (by omega)]

/-- A run of calls of `sendAddress` is the rotation iterated on the decoder half. -/
theorem runAll_sendAddress (a : BitVec 14) (long : Bool) (n : Nat) (s : State) :
    ∃ t, runAll (List.replicate n (.opSendAddress a long)) s = .next t ∧ t.dec = (rotate s.cfg a long)^[n] s.dec := by
  induction n generalizing s with
  | zero => exact ⟨s, rfl, rfl⟩
  | succ n ih =>
    obtain ⟨t, hrun, hdec⟩ := ih { s with dec := sendAddress s.cfg a long s.dec, out := {} }
    exact ⟨t, hrun, by rw [hdec, Function.iterate_succ_apply, sendAddress_eq_rotate]⟩

/-! ### The flush -/

theorem flush_eq (d : Decoder) : flush d = { d with ch1Q := d.ch1Q.tail, ch2Q := [] } := by
  rw [flush, List.drop_one]

end Lemmas

/-! ### The obligations -/

/-- Settles O16: each is an enqueue of a 12-bit datagram. -/
theorem sendsOfOneByte : Obligations.SendsOfOneByte :=
  ⟨fun v => hostOpIs_push2 (fun _ => rfl) (fun _ => rfl) (encodeDatagram_eq_dg12 · 0 v),
    fun v => hostOpIs_push2 (fun _ => rfl) (fun _ => rfl) (encodeDatagram_eq_dg12 · 4 v),
    fun v => hostOpIs_push2 (fun _ => rfl) (fun _ => rfl) (encodeDatagram_eq_dg12 · 8 v),
    fun v => hostOpIs_push2 (fun _ => rfl) (fun _ => rfl) (encodeDatagram_eq_dg12 · 3 v),
    fun v => hostOpIs_push2 (fun _ => rfl) (fun _ => rfl) (encodeDatagram_eq_dg12 · 6 v),
    fun v => hostOpIs_push1 (fun _ => rfl) (fun _ => rfl) (encodeDatagram_eq_dg12 · 3 v),
    fun v => hostOpIs_push1 (fun _ => rfl) (fun _ => rfl) (encodeDatagram_eq_dg12 · 4 v)⟩

/-- Settles O17: each is an enqueue of an 18-bit or a 36-bit datagram. -/
theorem sendsOfWidePayloads : Obligations.SendsOfWidePayloads :=
  ⟨fun v x => hostOpIs_push2 (fun _ => rfl) (fun _ => rfl) (encodeDatagram_eq_dg18 · 7 (v ++ x)),
    fun cv v => hostOpIs_push2 (fun _ => rfl) (fun _ => rfl) (encodeDatagram_eq_dg36 · 12 (cv ++ v)),
    fun t p => hostOpIs_push2 (fun _ => rfl) (fun _ => rfl) (encodeDatagram_eq_dg18 · 3 (t ++ p)),
    fun w => hostOpIs_push2 (fun _ => rfl) (fun _ => rfl) (encodeDatagram_eq_dg36 · 13 w)⟩

/-- Settles O18: within the range the argument fits its field, so its low bits are the argument. -/
theorem rangeCheckedSends : Obligations.RangeCheckedSends :=
  ⟨fun v u => hostOpIs_of_eq (fun _ => rfl) (fun _ => rfl) (sendTime_eq · v u),
    fun n a b c e => hostOpIs_of_eq (fun _ => rfl) (fun _ => rfl) (sendXpom_eq · n a b c e),
    fun v => hostOpIs_of_eq (fun _ => rfl) (fun _ => rfl) (sendRerail_eq · v),
    fun a e => hostOpIs_of_eq (fun _ => rfl) (fun _ => rfl) (sendServiceRequest_eq · a e)⟩

/-- Settles O21: the operation is one step of the rotation. -/
theorem sendAddressRotates : Obligations.SendAddressRotates :=
  fun a long => hostOpIs_of_eq (fun _ => rfl) (fun _ => rfl) (sendAddress_eq_rotate · a long)

/-- Settles O22: the rotation iterated from step 0, while there is room. -/
theorem rotationLaw : Obligations.RotationLaw := by
  refine ⟨fun s a long n h0 hroom => ?_, fun s => ⟨_, rfl, rfl⟩⟩
  obtain ⟨t, hrun, hdec⟩ := runAll_sendAddress a long n s
  rw [iterate_rotate h0 hroom] at hdec
  exact ⟨t, hrun, by rw [hdec]; exact val_stepAfter _ n, by rw [hdec]; rfl⟩

/-- Settles O23: the calls of a flush, by whether each queue is empty. -/
theorem cutoutFlushesTheQueues : Obligations.CutoutFlushesTheQueues := by
  intro s elapsed wait rest first second calls
  have hfirst : (s.dec.ch1Q.take 1).map (.write .tx) = first := by
    simp only [first]
    cases s.dec.ch1Q <;> rfl
  have hsecond : (if s.dec.ch2Q = [] then [] else
      .waitUntil (channelWait elapsed) :: s.dec.ch2Q.map (.write .tx)) = second := by
    simp only [second]
    cases s.dec.ch2Q <;> rfl
  have hcalls : flushCalls elapsed s.dec = if s.dec.ch1Q = [] ∧ s.dec.ch2Q = [] then [] else calls := by
    rw [flushCalls, hfirst, hsecond]
  calc exec (.trigCutoutStart elapsed) s
    _ = .next { s with dec := flush s.dec, out := { calls := flushCalls elapsed s.dec } } := rfl
    _ = _ := by rw [flush_eq, hcalls]

end Sys2Proof.TxEngine

/-! PROOFS. The DCC Command Parser (43_dcc_parser.md): what the decoder reads from a packet is what the parser
recognises in it (rules R280, R284 to R296), no test reads the check byte (rule R282), and a packet of no pattern
changes nothing (rule R297). With it the command POM_READ (rule R335). -/

namespace Sys2Proof.Parser

open Sys2Proof.Machine Sys2Proof.Claims Sys2Proof.Memory Sys2Proof.Encoding Sys2Proof.TxEngine

section Lemmas

variable {cfg : Config} {i : Instr} {pkt p q : List Byte}

/-! ### What a row does -/

/-- From every state the instruction does what `dcc_packet` does with a packet that classifies as `cmd`. -/
def Runs (i : Instr) (cmd : Cmd) : Prop := ∀ s, exec i s = runCmd cmd s

/-- The command of a body in an address form (rules R290 to R296). -/
def bodyCmd (form : AddrForm) (addr : BitVec 14) : MobileBody → Cmd
  | .pomRead v _ _ => .pomRead form addr (cvNumber v)
  | .pomWrite v d _ => .pomWrite form addr (cvNumber v) d
  | .pomWriteBit v _ d b _ => .pomWriteBit form addr (cvNumber v) b d
  | .functionG1 d _ => .function form addr 0 (functionG1State d)
  | .functionG2F5 d _ => .function form addr 5 (functionG2State d)
  | .functionG2F9 d _ => .function form addr 9 (functionG2State d)
  | .extFunction c _ => .extFunction form addr c
  | .dataSpaceRead n o _ => .dataSpaceRead form addr n o

/-- The command of what follows the address bytes: none where it is no body (rule R297). -/
def recognised (form : AddrForm) (addr : BitVec 14) : Option MobileBody → Cmd
  | some m => bodyCmd form addr m
  | none => .none

@[simp] theorem recognised_some (form : AddrForm) (addr : BitVec 14) (m : MobileBody) :
    recognised form addr (some m) = bodyCmd form addr m := rfl

@[simp] theorem recognised_none (form : AddrForm) (addr : BitVec 14) : recognised form addr none = .none := rfl

theorem recognised_ite (form : AddrForm) (addr : BitVec 14) (c : Prop) [Decidable c] (x y : Option MobileBody) :
    recognised form addr (if c then x else y) = if c then recognised form addr x else recognised form addr y :=
  apply_ite (recognised form addr) c x y

theorem runs_mobileBroadcast (m : MobileBody) : Runs (mobileBroadcast m) (bodyCmd .broadcast 0 m) := by
  cases m <;> exact fun _ => rfl

theorem runs_mobileShort (a : BitVec 7) (m : MobileBody) :
    Runs (mobileShort a m) (bodyCmd .short (shortAddress a) m) := by
  cases m <;> exact fun _ => rfl

theorem runs_mobileLong (a : BitVec 14) (m : MobileBody) : Runs (mobileLong a m) (bodyCmd .long a m) := by
  cases m <;> exact fun _ => rfl

/-! ### Mobile packets -/

/-- Behind the address bytes the parser sees what the decoder reads from a body, whatever the marker byte (rules R290
to R296). -/
theorem classifyMobile_append (cfg : Config) (form : AddrForm) (addr : BitVec 14) (head rest : List Byte) :
    classifyMobile cfg form head.length addr (head ++ rest) = recognised form addr (decodeBody cfg rest) := by
  have h0 : pktByte (head ++ rest) head.length = pktByte rest 0 := pktByte_append head rest 0
  simp only [classifyMobile, h0, pktByte_append, List.length_append, Nat.add_left_cancel_iff]
  match rest with
  | [] | [_] | _ :: _ :: _ :: _ :: _ :: _ => simp [decodeBody]
  | [b, e] => simp [pktByte, decodeBody, decodeBody2, recognised_ite, bodyCmd]
  | [b, c, e] => simp [pktByte, decodeBody, recognised_ite, bodyCmd]
  | [b, b1, b2, e] => simp [pktByte, decodeBody, decodeBody4, recognised_ite, bodyCmd]

/-! ### Logon and accessory packets -/

/-- What stands between a fixed head and the check byte (rules R286, R289). -/
theorem pktTail_append (head data : List Byte) (e : Byte) : pktTail (head ++ (data ++ [e])) head.length = data := by
  simp [pktTail, ← List.append_assoc]

theorem runs_of_decodeLogonEnable {c : Byte} {rest : List Byte} (hc : c.extractLsb' 2 6 = 0b111111#6)
    (h : decodeLogonEnable c rest = some i) : Runs i (classifyDcca (0xFE :: c :: rest)) := by
  unfold decodeLogonEnable at h
  split at h
  · cases h
    intro s
    simp [classifyDcca, pktByte, hc]
    rfl
  · cases h

/-- SELECT with up to three optional bytes stays within the 12 bytes of a packet (rules R282, R286). -/
theorem classifyDcca_select {c : Byte} (hne : c.extractLsb' 2 6 ≠ 0b111111#6) (hc : c.extractLsb' 4 4 = 0b1101#4)
    (m u3 u2 u1 u0 sub : Byte) {params : List Byte} (hlen : params.length ≤ 3) (e : Byte) :
    classifyDcca ([0xFE, c, m, u3, u2, u1, u0, sub] ++ (params ++ [e])) =
      .select (c.extractLsb' 0 4 ++ m) (u3 ++ u2 ++ u1 ++ u0) sub params := by
  have hbound : 9 ≤ params.length + 9 ∧ params.length + 9 ≤ dccPktMax := by
    simp only [dccPktMax]
    omega
  have htail := pktTail_append [0xFE, c, m, u3, u2, u1, u0, sub] params e
  simpa [classifyDcca, pktByte, hne, hc, hbound] using htail

/-- LOGON_ASSIGN with up to two further bytes stays within the 12 bytes of a packet (rules R282, R287). -/
theorem classifyDcca_logonAssign {c : Byte} (hne : c.extractLsb' 2 6 ≠ 0b111111#6) (hc : c.extractLsb' 4 4 = 0b1110#4)
    (m u3 u2 u1 u0 ka a0 : Byte) {more : List Byte} (hlen : more.length ≤ 2) (e : Byte) :
    classifyDcca ([0xFE, c, m, u3, u2, u1, u0, ka, a0] ++ (more ++ [e])) =
      .logonAssign (c.extractLsb' 0 4 ++ m) (u3 ++ u2 ++ u1 ++ u0) (ka.extractLsb' 6 2) (ka.extractLsb' 0 6 ++ a0) := by
  have hbound : 10 ≤ more.length + 10 ∧ more.length + 10 ≤ dccPktMax := by
    simp only [dccPktMax]
    omega
  simp [classifyDcca, pktByte, hne, hc, hbound]

theorem runs_of_decodeSelect {c : Byte} {rest : List Byte} (hne : c.extractLsb' 2 6 ≠ 0b111111#6)
    (hc : c.extractLsb' 4 4 = 0b1101#4) (h : decodeSelect c rest = some i) :
    Runs i (classifyDcca (0xFE :: c :: rest)) := by
  unfold decodeSelect at h
  split at h
  · next m u3 u2 u1 u0 sub tail =>
    split at h
    · next params e hsplit =>
      split at h
      · next hlen =>
        cases h
        have hcmd := classifyDcca_select hne hc m u3 u2 u1 u0 sub hlen e
        rw [← eq_append_of_splitLast hsplit] at hcmd
        exact fun s => congrArg (runCmd · s) hcmd.symm
      · cases h
    · cases h
  · cases h

theorem runs_of_decodeLogonAssign {c : Byte} {rest : List Byte} (hne : c.extractLsb' 2 6 ≠ 0b111111#6)
    (hc : c.extractLsb' 4 4 = 0b1110#4) (h : decodeLogonAssign c rest = some i) :
    Runs i (classifyDcca (0xFE :: c :: rest)) := by
  unfold decodeLogonAssign at h
  split at h
  · next m u3 u2 u1 u0 ka a0 tail =>
    split at h
    · next more e hsplit =>
      split at h
      · next hlen =>
        cases h
        have hcmd := classifyDcca_logonAssign hne hc m u3 u2 u1 u0 ka a0 hlen e
        rw [← eq_append_of_splitLast hsplit] at hcmd
        exact fun s => congrArg (runCmd · s) hcmd.symm
      · cases h
    · cases h
  · cases h

theorem classifyDcca_getData (e : Byte) :
    classifyDcca [0xFE, 0x00, e] = .getDataStart ∧ classifyDcca [0xFE, 0x01, e] = .getDataCont := by
  simp [classifyDcca, pktByte]

theorem classifyDcca_setData (data : List Byte) (e : Byte) :
    classifyDcca (0xFE :: 0x02 :: (data ++ [e])) = .setData data ∧
      classifyDcca (0xFE :: 0x03 :: (data ++ [e])) = .setDataEnd data := by
  have htail : ∀ c, pktTail (0xFE#8 :: c :: (data ++ [e])) 2 = data := fun c => pktTail_append [0xFE#8, c] data e
  simp [classifyDcca, pktByte, htail]

theorem runs_of_decodeDcca {rest : List Byte} (h : decodeDcca rest = some i) :
    Runs i (classifyDcca (0xFE :: rest)) := by
  unfold decodeDcca at h
  split at h
  · cases h
  next c tail =>
  split at h
  · next hc => exact runs_of_decodeLogonEnable hc h
  next hne =>
  split at h
  · next hc => exact runs_of_decodeSelect hne hc h
  split at h
  · next hc => exact runs_of_decodeLogonAssign hne hc h
  split at h
  · next hc =>
    split at h
    · cases h
      rw [hc, (classifyDcca_getData _).1]
      exact fun _ => rfl
    · cases h
  split at h
  · next hc =>
    split at h
    · cases h
      rw [hc, (classifyDcca_getData _).2]
      exact fun _ => rfl
    · cases h
  split at h
  · next hc =>
    obtain ⟨data, e, rfl, rfl⟩ := eq_append_of_decodeData h
    rw [hc, (classifyDcca_setData data e).1]
    exact fun _ => rfl
  split at h
  · next hc =>
    obtain ⟨data, e, rfl, rfl⟩ := eq_append_of_decodeData h
    rw [hc, (classifyDcca_setData data e).2]
    exact fun _ => rfl
  · cases h

theorem runs_of_decodeAccessory {b0 : Byte} {rest : List Byte} (h : decodeAccessory b0 rest = some i) :
    Runs i (classifyAccessory (b0 :: rest)) := by
  unfold decodeAccessory at h
  split at h
  · split at h
    · next h7 =>
      cases h
      exact fun s => congrArg (runCmd · s) (if_pos ⟨rfl, h7⟩).symm
    · cases h
  · cases h

/-! ### The partition of the first byte -/

theorem accessory_partition_iff (b : Byte) : b.extractLsb' 6 2 = 0b10#2 ↔ 0x80 ≤ b.toNat ∧ b.toNat ≤ 0xBF := by
  revert b
  decide

theorem short_partition_iff (b : Byte) (h0 : b ≠ 0x00) :
    b.extractLsb' 7 1 = 0b0#1 ↔ 0x01 ≤ b.toNat ∧ b.toNat ≤ 0x7F := by
  revert b
  decide

/-- The decoder and the parser divide the first byte at the same values (rules R112, R283). -/
theorem runs_of_decodeFormat (hlen : ¬ (pkt.length < 3 ∨ dccPktMax < pkt.length))
    (h : decodeFormat cfg pkt = some i) : Runs i (classify cfg pkt) := by
  rw [classify, if_neg hlen]
  unfold decodeFormat at h
  split at h
  · cases h
  next b0 rest =>
  have hb0 : pktByte (b0 :: rest) 0 = b0 := rfl
  have hacc_iff := accessory_partition_iff b0
  rw [hb0]
  split at h
  · next hdcca =>
    rw [if_pos hdcca, hdcca]
    exact runs_of_decodeDcca h
  next hdcca =>
  rw [if_neg hdcca]
  split at h
  · next hacc =>
    rw [if_pos (hacc_iff.1 hacc)]
    exact runs_of_decodeAccessory h
  next hacc =>
  rw [if_neg (hacc_iff.not.1 hacc)]
  split at h
  · next hzero =>
    obtain ⟨m, hm, rfl⟩ := Option.map_eq_some_iff.1 h
    have hcmd := classifyMobile_append cfg .broadcast 0 [b0] rest
    rw [hm] at hcmd
    rw [if_pos hzero]
    exact hcmd ▸ runs_mobileBroadcast m
  next hzero =>
  have hshort_iff := short_partition_iff b0 hzero
  rw [if_neg hzero]
  split at h
  · next hshort =>
    obtain ⟨m, hm, rfl⟩ := Option.map_eq_some_iff.1 h
    have hcmd := classifyMobile_append cfg .short (shortAddress (b0.extractLsb' 0 7)) [b0] rest
    rw [hm] at hcmd
    rw [if_pos (hshort_iff.1 hshort)]
    exact hcmd ▸ runs_mobileShort _ m
  next hshort =>
  rw [if_neg (hshort_iff.not.1 hshort)]
  split at h
  · next hle =>
    split at h
    · cases h
    next b1 rest' =>
    obtain ⟨m, hm, rfl⟩ := Option.map_eq_some_iff.1 h
    have hge : 0xC0 ≤ b0.toNat := by
      have := hacc_iff.not.1 hacc
      have := hshort_iff.not.1 hshort
      have : b0.toNat ≠ 0 := fun h => hzero (BitVec.eq_of_toNat_eq h)
      omega
    have hcmd := classifyMobile_append cfg .long (b0.extractLsb' 0 6 ++ b1) [b0, b1] rest'
    rw [hm] at hcmd
    rw [if_pos ⟨hge, hle⟩]
    exact hcmd ▸ runs_mobileLong _ m
  · cases h

/-! ### The check byte -/

/-- Two packets of one length that show the parser the same bytes and the same byte strings before the last byte. -/
structure AgreeBeforeLast (p q : List Byte) : Prop where
  length : q.length = p.length
  byte : ∀ n, n + 1 < p.length → pktByte q n = pktByte p n
  tail : ∀ lo, pktTail q lo = pktTail p lo

theorem agreeBeforeLast_append (body : List Byte) (e f : Byte) : AgreeBeforeLast (body ++ [e]) (body ++ [f]) where
  length := by simp
  byte n hn := by
    have hlt : n < body.length := by simpa using hn
    simp [pktByte, List.getElem?_append_left hlt]
  tail lo := by simp [pktTail]

/-- Each variant reads bytes that its own length puts before the last (rules R285 to R289). -/
theorem AgreeBeforeLast.classifyDcca_eq (h : AgreeBeforeLast p q) (hmin : 3 ≤ p.length) :
    classifyDcca q = classifyDcca p := by
  simp only [classifyDcca, h.length, h.tail, h.byte 1 (by omega)]
  refine ite_congr rfl (fun ⟨_, hlen⟩ => ?_) fun _ => ite_congr rfl (fun ⟨_, hlen, _⟩ => ?_) fun _ =>
    ite_congr rfl (fun ⟨_, hlen, _⟩ => ?_) fun _ => rfl
  · rw [h.byte 2 (by omega), h.byte 3 (by omega), h.byte 4 (by omega)]
  · rw [h.byte 2 (by omega), h.byte 3 (by omega), h.byte 4 (by omega), h.byte 5 (by omega), h.byte 6 (by omega),
      h.byte 7 (by omega)]
  · rw [h.byte 2 (by omega), h.byte 3 (by omega), h.byte 4 (by omega), h.byte 5 (by omega), h.byte 6 (by omega),
      h.byte 7 (by omega), h.byte 8 (by omega)]

theorem AgreeBeforeLast.classifyAccessory_eq (h : AgreeBeforeLast p q) (hmin : 3 ≤ p.length) :
    classifyAccessory q = classifyAccessory p := by
  simp only [classifyAccessory, h.length, h.byte 0 (by omega), h.byte 1 (by omega)]

/-- A body of two, three or four bytes is read up to its last byte, and a body of another length has no variant (rules
R290 to R296). -/
theorem AgreeBeforeLast.classifyMobile_eq (h : AgreeBeforeLast p q) (cfg : Config) (form : AddrForm) (a : Nat)
    (addr : BitVec 14) : classifyMobile cfg form a addr q = classifyMobile cfg form a addr p := by
  by_cases h4 : p.length = a + 4
  · simp only [classifyMobile, h.length, h.byte a (by omega), h.byte (a + 1) (by omega), h.byte (a + 2) (by omega)]
  by_cases h3 : p.length = a + 3
  · simp [classifyMobile, h.length, h3, h.byte a (by omega), h.byte (a + 1) (by omega)]
  by_cases h2 : p.length = a + 2
  · simp [classifyMobile, h.length, h2, h.byte a (by omega)]
  · simp [classifyMobile, h.length, h4, h3, h2]

theorem AgreeBeforeLast.classify_eq (h : AgreeBeforeLast p q) (cfg : Config) : classify cfg q = classify cfg p := by
  by_cases hlen : p.length < 3 ∨ dccPktMax < p.length
  · rw [classify, classify, if_pos hlen, h.length, if_pos hlen]
  · have hmin : 3 ≤ p.length := by omega
    simp only [classify, h.length, h.byte 0 (by omega), h.byte 1 (by omega), h.classifyDcca_eq hmin,
      h.classifyAccessory_eq hmin, h.classifyMobile_eq]

/-! ### POM_READ -/

theorem cvLookup_eq_lookup (key : BitVec 24) (m : CvMap) : cvLookup key m = m.lookup key := by
  induction m with
  | nil => rfl
  | cons p rest ih =>
    obtain ⟨k, v⟩ := p
    by_cases hk : k = key
    · simp [cvLookup, hk]
    · have hne : (key == k) = false := beq_false_of_ne (Ne.symm hk)
      simp [cvLookup, List.lookup_cons, hk, hne, ih]

/-- The handler sends the value the map has (rules R230, R335). -/
theorem handlePomRead_eq (cfg : Config) (cv : BitVec 11) (d : Decoder) :
    handlePomRead cfg cv d =
      match d.cv.lookup (cv.setWidth 24) with
      | some value => (push2 cfg (dg12 cfg 0 value) d, true)
      | none => (d, false) := by
  rw [handlePomRead, cvLookup_eq_lookup]
  cases d.cv.lookup (cv.setWidth 24) with
  | some value => simp only [sendPom, enqueue_two_eq_push2, wirePom, encodeDatagram_eq_dg12]
  | none => rfl

/-- POM_READ in any address form (rule R335). -/
theorem runCmd_pomRead (form : AddrForm) (a : BitVec 14) (cv : BitVec 11) (s : State) :
    runCmd (.pomRead form a cv) s =
      mobileGives s (ownMobile form a s.dec) (.pomRead form a cv) (handlePomRead s.cfg cv) :=
  runCmd_eq_mobileGives (by simp) rfl fun _ => rfl

end Lemmas

/-! ### The obligations -/

/-- Settles O8: what the decoder reads, the parser recognises; a packet the decoder cannot read stays raw. -/
theorem packetRowsAgreeWithParser : Obligations.PacketRowsAgreeWithParser := by
  intro s pkt
  unfold decodeDcc packetRow
  split
  · rfl
  · next hlen =>
    cases hrow : decodeFormat s.cfg pkt with
    | none => rfl
    | some i => exact runs_of_decodeFormat hlen hrow s

/-- Settles O10: the parser gives both packets one command. -/
theorem checkByteIsNotRead : Obligations.CheckByteIsNotRead :=
  fun s body e f => congrArg (runCmd · s) ((agreeBeforeLast_append body f e).classify_eq s.cfg)

/-- Settles O48: the three packets are one command in three address forms. -/
theorem pomReadAnswersTheCv : Obligations.PomReadAnswersTheCv := by
  intro s v x e cv answer
  have hanswer : handlePomRead s.cfg cv = answer := funext (handlePomRead_eq s.cfg cv)
  rw [← hanswer]
  refine ⟨runCmd_pomRead .broadcast 0 cv s, fun a => ?_, fun a => runCmd_pomRead .long a cv s⟩
  rw [← ownMobile_short_setWidth]
  exact runCmd_pomRead .short (shortAddress a) cv s

/-- Settles O9: `dcc_packet` ends where the command is none; the named packets are of no pattern. -/
theorem unmatchedPacketsChangeNothing : Obligations.UnmatchedPacketsChangeNothing := by
  refine ⟨fun s pkt h => ?_, fun cfg pkt h => if_pos h, fun cfg _ => ⟨rfl, rfl, rfl, rfl⟩, by decide⟩
  calc exec (.trigDccPacket pkt) s
    _ = runCmd .none s := congrArg (runCmd · s) h
    _ = packetGives s .none false s.dec := rfl

end Sys2Proof.Parser

/-! PROOFS. The Decoder State Machine (44_decoder_fsm.md): the logon (rules R330, R331, R336, R350, R351), the mobile
and accessory commands (rules R337 to R344), and the CV-Auto tick (rules R345, R346). -/

namespace Sys2Proof.DecoderFsm

open Sys2Proof.Machine Sys2Proof.Claims Sys2Proof.Memory Sys2Proof.Encoding Sys2Proof.Codec Sys2Proof.TxEngine

section Lemmas

variable {cfg : Config} {d d' : Decoder} {s t : State} {i : Instr}

/-! ### The logon state over one instruction -/

@[simp] theorem sendAddress_logonState (a : BitVec 14) (long : Bool) :
    (sendAddress cfg a long d).logonState = d.logonState :=
  enqueue_logonState ..

@[simp] theorem sendXpom_logonState (seq d0 d1 d2 d3 : Byte) :
    (sendXpom cfg seq d0 d1 d2 d3 d).logonState = d.logonState := by
  unfold sendXpom
  split <;> simp

@[simp] theorem sendTime_logonState (value : Byte) (unit : Bool) :
    (sendTime cfg value unit d).logonState = d.logonState := by
  unfold sendTime
  split <;> simp

@[simp] theorem sendRerail_logonState (seconds : BitVec 16) :
    (sendRerail cfg seconds d).logonState = d.logonState := by
  unfold sendRerail
  split <;> simp

@[simp] theorem sendServiceRequest_logonState (a : BitVec 16) (ext : Bool) :
    (sendServiceRequest cfg a ext d).logonState = d.logonState := by
  unfold sendServiceRequest
  split <;> simp

@[simp] theorem sendDataSpace_logonState (num : Byte) (data : List Byte) :
    (sendDataSpace cfg num data d).logonState = d.logonState := by
  unfold sendDataSpace
  split <;> simp

@[simp] theorem cvAutoTick_logonState : (cvAutoTick cfg d).logonState = d.logonState := by
  unfold cvAutoTick
  split
  · split
    · exact enqueue_logonState ..
    · rfl
  · rfl

/-- A broadcast leaves the decoder IN_SINGULATION, a count-down leaves the state alone (rule R331). -/
theorem singulate_logonState (cfg : Config) (d : Decoder) :
    (singulate cfg d).1.logonState = if d.backoffCounter = 0 then .inSingulation else d.logonState := by
  unfold singulate
  split <;> rfl

theorem handleLogonEnable_logonState (group : BitVec 2) (cid : BitVec 16) (session : Byte) :
    (handleLogonEnable cfg d).1.logonState = logonAfter d (some (.logonEnable group cid session)) := by
  unfold handleLogonEnable logonAfter
  cases hl : d.logonState with
  | idle | waitingForLogon | inSingulation => simp [singulate_logonState, hl]
  | announced | registered => simp [hl]

theorem handleSelect_logonState (mfg : BitVec 12) (uid : Word32) (sub : Byte) (params : List Byte) :
    (handleSelect mfg uid d).1.logonState = logonAfter d (some (.select mfg uid sub params)) := by
  simp only [logonAfter]
  split
  · next h => rw [handleSelect_of_match h]
  · next h => rw [handleSelect_of_not_match h]

theorem handleLogonAssign_logonState (mfg : BitVec 12) (uid : Word32) (akind : BitVec 2) (a : BitVec 14) :
    (handleLogonAssign cfg mfg uid a d).1.logonState = logonAfter d (some (.logonAssign mfg uid akind a)) := by
  unfold handleLogonAssign logonAfter
  simp only [identityMatches_iff]
  split
  · exact enqueueSplit_logonState ..
  · rfl

theorem handlePomRead_logonState (cv : BitVec 11) : (handlePomRead cfg cv d).1.logonState = d.logonState := by
  unfold handlePomRead
  split
  · exact enqueue_logonState ..
  · rfl

theorem handleAccessory_logonState (activate : Bool) (output : BitVec 3) :
    (handleAccessory cfg activate output d).1.logonState = d.logonState := by
  unfold handleAccessory
  dsimp only
  split <;> exact enqueue_logonState ..

theorem handleExtFunction_logonState (form : AddrForm) (a : BitVec 14) (command : Byte) :
    (handleExtFunction cfg form a command d).1.logonState = d.logonState := by
  unfold handleExtFunction
  split
  · simp [handleRerail]
  · split
    · exact enqueue_logonState ..
    · split <;> rfl

theorem handleDataSpaceRead_logonState (num off : Byte) :
    (handleDataSpaceRead cfg num off d).1.logonState = d.logonState := by
  unfold handleDataSpaceRead
  split <;> simp

/-- A handler moves the logon state as rule R350 tabulates. -/
theorem handle_logonState (cfg : Config) (cmd : Cmd) (d : Decoder) :
    (handle cfg cmd d).1.logonState = logonAfter d (some cmd) := by
  cases cmd with
  | none | getDataStart | getDataCont | setData | setDataEnd | pomWrite | pomWriteBit | function => rfl
  | logonEnable => exact handleLogonEnable_logonState _ _ _
  | select => exact handleSelect_logonState _ _ _ _
  | logonAssign => exact handleLogonAssign_logonState _ _ _ _
  | extFunction => exact handleExtFunction_logonState _ _ _
  | pomRead =>
    simp only [handle]
    split
    · exact handlePomRead_logonState _
    · rfl
  | accessory =>
    simp only [handle]
    split
    · exact handleAccessory_logonState _ _
    · rfl
  | dataSpaceRead =>
    simp only [handle]
    split
    · exact handleDataSpaceRead_logonState _ _
    · rfl

/-- The table does not look at the broadcast latch. -/
theorem logonAfter_clearLatch (cmd c : Cmd) (d : Decoder) :
    logonAfter (clearLatch cmd d) (some c) = logonAfter d (some c) := by
  simp [logonAfter]

/-- The default broadcast does not touch the logon state: a packet moves it as its handler does (rule R320). -/
theorem handleRecognised_logonState (cfg : Config) (cmd : Cmd) (d : Decoder) :
    (handleRecognised cfg cmd d).1.logonState = logonAfter d (some cmd) := by
  rw [← logonAfter_clearLatch cmd, ← handle_logonState cfg]
  unfold handleRecognised
  dsimp only
  split
  · exact sendAddress_logonState _ _
  · rfl

theorem dccPacket_logonState (cfg : Config) (cmd : Cmd) (d : Decoder) :
    (dccPacket cfg cmd d).1.logonState = logonAfter d (some cmd) := by
  unfold dccPacket
  split
  · next h => rw [h]; rfl
  · exact handleRecognised_logonState cfg cmd d

/-- The logon state has moved from `s` to `t` as rule R350 tabulates. -/
def MovesAsTabulated (s t : State) : Prop := t.dec.logonState = logonAfter s.dec t.out.cmdOut

theorem runCmd_movesAsTabulated {cmd : Cmd} (ht : runCmd cmd s = .next t) : MovesAsTabulated s t := by
  rw [(runCmd_eq_next cmd).1 ht]
  exact dccPacket_logonState s.cfg cmd s.dec

theorem readBytes_movesAsTabulated {bytes : List Byte} {calls : List Call} (ht : readBytes bytes calls s = .next t) :
    MovesAsTabulated s t := by
  rw [(readBytes_eq_next bytes calls).1 ht]
  rfl

theorem callsOnly_movesAsTabulated {calls : List Call} (ht : callsOnly calls s = .next t) : MovesAsTabulated s t := by
  rw [(callsOnly_eq_next calls).1 ht]
  rfl

/-- The half an operation leaves is named as one value, as in `onDecoder_keepsQueues`. -/
theorem onReceiver_movesAsTabulated {r' : Receiver} (ht : onReceiver (fun _ => r') s = .next t) :
    MovesAsTabulated s t := by
  rw [(onReceiver_eq_next _).1 ht]
  rfl

/-- A host operation on the decoder half that keeps the logon state. -/
theorem onDecoder_movesAsTabulated {d' : Decoder} (ht : onDecoder (fun _ _ => d') s = .next t)
    (h : d'.logonState = s.dec.logonState) : MovesAsTabulated s t := by
  rw [(onDecoder_eq_next _).1 ht]
  exact h

/-- Every instruction but the two resets, by the shared operation that is its meaning: a packet moves the state by the
table, nothing else touches it (rule R350). -/
theorem exec_movesAsTabulated (hreset : i ≠ .opReset) (hlogon : i ≠ .opLogonReset) (ht : exec i s = .next t) :
    MovesAsTabulated s t := by
  cases i with
  | opReset => exact absurd rfl hreset
  | opLogonReset => exact absurd rfl hlogon
  | dccLogonEnable | dccSelect | dccLogonAssign | dccGetDataStart | dccGetDataCont | dccSetData | dccSetDataEnd
  | dccPomReadBroadcast | dccPomReadShort | dccPomReadLong
  | dccPomWriteBroadcast | dccPomWriteShort | dccPomWriteLong
  | dccPomWriteBitBroadcast | dccPomWriteBitShort | dccPomWriteBitLong
  | dccFunctionG1Broadcast | dccFunctionG1Short | dccFunctionG1Long
  | dccFunctionG2F5Broadcast | dccFunctionG2F5Short | dccFunctionG2F5Long
  | dccFunctionG2F9Broadcast | dccFunctionG2F9Short | dccFunctionG2F9Long
  | dccExtFunctionBroadcast | dccExtFunctionShort | dccExtFunctionLong
  | dccDataSpaceReadBroadcast | dccDataSpaceReadShort | dccDataSpaceReadLong
  | dccAccessory | trigDccPacket => exact runCmd_movesAsTabulated ht
  | dgPom | dgAdrHigh | dgAdrLow | dgExt | dgStat4 | dgDrivingInfo | dgBasicInfo | dgStat1 | dgTime | dgError | dgDyn
  | dgXpom0 | dgXpom1 | dgXpom2 | dgXpom3 | dgStat2 | dgCvAuto | dgBlock | dgDecoderState | dgRerail
  | dgDecoderUnique | dgSrq | dgDataSpace
  | symAck1 | symAck2 | symNack | symData | opRxRead => exact readBytes_movesAsTabulated ht
  | opRxSetContext | opRxExpectDataSpace | opRxCacheTimeout => exact onReceiver_movesAsTabulated ht
  | opTxBegin | opTxEnd | opRxBegin | opRxEnd => exact callsOnly_movesAsTabulated ht
  | trigCutoutStart => cases ht; exact flush_logonState s.dec
  | opCvAutoTick => exact onDecoder_movesAsTabulated ht cvAutoTick_logonState
  | opSendPom | opSendDynamic | opSendStatus1 | opSendStatus2 | opSendStatus4 | opSendError | opSendCvAuto | opSendExt
  | opSendDrivingInfo | opSendBasicInfo | opSendBlock => exact onDecoder_movesAsTabulated ht (enqueue_logonState ..)
  | opSendDecoderUnique | opSendDecoderState => exact onDecoder_movesAsTabulated ht (enqueueSplit_logonState ..)
  | opSendAddress => exact onDecoder_movesAsTabulated ht (sendAddress_logonState _ _)
  | opSendXpom => exact onDecoder_movesAsTabulated ht (sendXpom_logonState _ _ _ _ _)
  | opSendTime => exact onDecoder_movesAsTabulated ht (sendTime_logonState _ _)
  | opSendRerail => exact onDecoder_movesAsTabulated ht (sendRerail_logonState _)
  | opSendServiceRequest => exact onDecoder_movesAsTabulated ht (sendServiceRequest_logonState _ _)
  | opSendDataSpace => exact onDecoder_movesAsTabulated ht (sendDataSpace_logonState _ _)
  | opSecondTick | opSetAddress | opSetIdentity | opSetClass | opSetExtInfoEnabled | opSetExtInfo | opSetExtPosition
  | opSetDecoderStateFields | opCvSet | opCvClear | opDsSet | opDsClear =>
    exact onDecoder_movesAsTabulated ht rfl

theorem logonCode_le_four (l : LogonState) : logonCode l ≤ 4 := by
  cases l <;> decide

/-- No entry of the table goes back (rule R351). -/
theorem logonCode_le_logonAfter (d : Decoder) (cmd : Option Cmd) :
    logonCode d.logonState ≤ logonCode (logonAfter d cmd) := by
  unfold logonAfter
  split
  · split
    · next hidle => rw [hidle]; exact Nat.zero_le _
    · split
      · next h =>
        obtain ⟨hwaiting, -⟩ := h
        rw [hwaiting]
        decide
      · exact Nat.le_refl _
  · split
    · next h =>
      obtain ⟨-, -, hearly⟩ := h
      exact Nat.le_of_lt hearly
    · exact Nat.le_refl _
  · split
    · exact logonCode_le_four _
    · exact Nat.le_refl _
  · exact Nat.le_refl _

/-! ### Runs of one instruction -/

/-- A run of one instruction that gives the decoder half `g` and keeps the parameters is `g` iterated. -/
theorem runAll_replicate {g : Config → Decoder → Decoder}
    (h : ∀ s, ∃ t, exec i s = .next t ∧ t.cfg = s.cfg ∧ t.dec = g s.cfg s.dec) (n : Nat) (s : State) :
    ∃ t, runAll (List.replicate n i) s = .next t ∧ t.cfg = s.cfg ∧ t.dec = (g s.cfg)^[n] s.dec := by
  induction n generalizing s with
  | zero => exact ⟨s, rfl, rfl, rfl⟩
  | succ n ih =>
    obtain ⟨u, hu, hcfg, hdec⟩ := h s
    obtain ⟨t, ht, htcfg, htdec⟩ := ih u
    refine ⟨t, ?_, htcfg.trans hcfg, ?_⟩
    · rw [List.replicate_succ, runAll, hu]
      exact ht
    · rw [htdec, hcfg, hdec, Function.iterate_succ_apply]

/-! ### LOGON_ENABLE -/

theorem logonCode_lt_three_iff (l : LogonState) :
    logonCode l < 3 ↔ l = .idle ∨ l = .waitingForLogon ∨ l = .inSingulation := by
  cases l <;> decide

/-- An identity broadcast: the datagram over both channels, the counter reloaded, the value grown (rule R331). -/
def identityBroadcast (cfg : Config) (d : Decoder) : Decoder :=
  { pushBoth cfg (dg48Head cfg 15 (d.mfgId ++ d.productId)) (dg48Tail cfg (d.mfgId ++ d.productId)) d with
    backoffCounter := d.backoffValue
    backoffValue := BitVec.ofNat 32 (min (d.backoffValue.toNat + cfg.backoffStep) 0xFFFFFFFF)
    logonState := .inSingulation }

/-- A LOGON_ENABLE that is let pass (rules R330, R331). -/
def countDown (d : Decoder) : Decoder :=
  { d with
    backoffCounter := d.backoffCounter - 1
    logonState := if d.logonState = .idle then .waitingForLogon else d.logonState }

theorem countDown_of_idle (h : d.logonState = .idle) :
    countDown d = { d with backoffCounter := d.backoffCounter - 1, logonState := .waitingForLogon } := by
  rw [countDown, if_pos h]

theorem countDown_of_ne_idle (h : d.logonState ≠ .idle) :
    countDown d = { d with backoffCounter := d.backoffCounter - 1 } := by
  rw [countDown, if_neg h]

theorem singulate_of_zero (h : d.backoffCounter = 0) : singulate cfg d = (identityBroadcast cfg d, true) := by
  have hsend := enqueueSplit_dg48 cfg 15 (d.mfgId ++ d.productId) d
  rw [singulate, if_pos h, sendDecoderUnique, wireDecoderUnique, hsend]
  rfl

theorem singulate_of_ne_zero (h : d.backoffCounter ≠ 0) :
    singulate cfg d = ({ d with backoffCounter := d.backoffCounter - 1 }, false) :=
  if_neg h

/-- A broadcast overwrites the logon state it begins in. -/
theorem identityBroadcast_setLogonState (l : LogonState) :
    identityBroadcast cfg { d with logonState := l } = identityBroadcast cfg d := by
  simp only [identityBroadcast, pushBoth]
  split <;> rfl

theorem handleLogonEnable_of_zero (hl : logonCode d.logonState < 3) (h : d.backoffCounter = 0) :
    handleLogonEnable cfg d = (identityBroadcast cfg d, true) := by
  unfold handleLogonEnable
  rcases (logonCode_lt_three_iff _).1 hl with e | e | e <;> simp only [e]
  · rw [← identityBroadcast_setLogonState .waitingForLogon]
    exact singulate_of_zero h
  · exact singulate_of_zero h
  · exact singulate_of_zero h

theorem handleLogonEnable_of_ne_zero (hl : logonCode d.logonState < 3) (h : d.backoffCounter ≠ 0) :
    handleLogonEnable cfg d = (countDown d, false) := by
  unfold handleLogonEnable
  rcases (logonCode_lt_three_iff _).1 hl with e | e | e <;> simp only [e]
  · rw [countDown_of_idle e]
    exact singulate_of_ne_zero h
  · rw [countDown_of_ne_idle (by simp [e])]
    exact singulate_of_ne_zero h
  · rw [countDown_of_ne_idle (by simp [e])]
    exact singulate_of_ne_zero h

theorem handleLogonEnable_of_late (h : d.logonState = .announced ∨ d.logonState = .registered) :
    handleLogonEnable cfg d = (d, false) := by
  unfold handleLogonEnable
  rcases h with e | e <;> simp only [e]

/-- LOGON_ENABLE is its handler (rule R330). -/
theorem runCmd_logonEnable (group : BitVec 2) (cid : BitVec 16) (session : Byte) (s : State) :
    runCmd (.logonEnable group cid session) s =
      packetGives s (.logonEnable group cid session) (handleLogonEnable s.cfg s.dec).2
        (handleLogonEnable s.cfg s.dec).1 :=
  runCmd_of_isLogon rfl s

/-! ### The backoff counter -/

/-- `d'` is `d` counted down to 0 with nothing broadcast: it may still log on, and queues and backoff value are those
of `d`. -/
structure CountedDown (d d' : Decoder) : Prop where
  early : logonCode d'.logonState < 3
  counter : d'.backoffCounter = 0
  value : d'.backoffValue = d.backoffValue
  ch1Q : d'.ch1Q = d.ch1Q
  ch2Q : d'.ch2Q = d.ch2Q

theorem countDown_early (hl : logonCode d.logonState < 3) : logonCode (countDown d).logonState < 3 := by
  simp only [countDown]
  split
  · decide
  · exact hl

theorem CountedDown.of_countDown (h : CountedDown (countDown d) d') : CountedDown d d' :=
  { h with }

/-- As many LOGON_ENABLE packets as the counter says bring it to 0, by induction on the counter. -/
theorem iterate_handleLogonEnable {n : Nat} (hn : d.backoffCounter.toNat = n) (hl : logonCode d.logonState < 3) :
    CountedDown d ((fun d => (handleLogonEnable cfg d).1)^[n] d) := by
  induction n generalizing d with
  | zero => exact ⟨hl, BitVec.eq_of_toNat_eq hn, rfl, rfl, rfl⟩
  | succ n ih =>
    have hne : d.backoffCounter ≠ 0 := by
      intro h
      simp [h] at hn
    have hcount : (countDown d).backoffCounter.toNat = n := by
      simp only [countDown]
      bv_omega
    rw [Function.iterate_succ_apply, handleLogonEnable_of_ne_zero hl hne]
    exact (ih hcount (countDown_early hl)).of_countDown

/-- The backoff value grows until it saturates (rule R331). -/
theorem lt_backoffValue_identityBroadcast (hstep : 1 ≤ cfg.backoffStep) (h : d.backoffValue ≠ 0xFFFFFFFF) :
    d.backoffValue.toNat < (identityBroadcast cfg d).backoffValue.toNat := by
  have hlt : d.backoffValue.toNat < 0xFFFFFFFF := by bv_omega
  simp only [identityBroadcast, BitVec.toNat_ofNat]
  omega

/-! ### Mobile commands -/

/-- A command that is answered alike in the three address forms, in the packet of each (rules R112, R320, R322). -/
theorem mobileGives_of_forms {mk : AddrForm → BitVec 14 → Cmd} {answer : Decoder → Decoder × Bool}
    (h : ∀ form a, runCmd (mk form a) s = mobileGives s (ownMobile form a s.dec) (mk form a) answer) :
    runCmd (mk .broadcast 0) s = mobileGives s false (mk .broadcast 0) answer ∧
      (∀ a, runCmd (mk .short (shortAddress a)) s =
        mobileGives s (ownShort a s.dec) (mk .short (a.setWidth 14)) answer) ∧
      ∀ a, runCmd (mk .long a) s = mobileGives s (ownLong a s.dec) (mk .long a) answer := by
  refine ⟨h .broadcast 0, fun a => ?_, h .long⟩
  rw [← ownMobile_short_setWidth]
  exact h .short (shortAddress a)

/-- A recognised command whose handler does nothing and that is no logon command (rules R338 to R340). -/
theorem runCmd_of_silent {cmd : Cmd} (hnone : cmd ≠ .none) (hlogon : isLogon cmd = false)
    (h : ∀ d, handle s.cfg cmd d = (d, false)) :
    runCmd cmd s = mobileGives s (addressed cmd s.dec) cmd fun d => (d, false) :=
  runCmd_eq_mobileGives hnone hlogon fun d => by rw [h, ite_self]

theorem runCmd_pomWrite (cv : BitVec 11) (v : Byte) (s : State) (form : AddrForm) (a : BitVec 14) :
    runCmd (.pomWrite form a cv v) s =
      mobileGives s (ownMobile form a s.dec) (.pomWrite form a cv v) fun d => (d, false) :=
  runCmd_of_silent (by simp) rfl fun _ => rfl

theorem runCmd_pomWriteBit (cv : BitVec 11) (bit : BitVec 3) (v : Bool) (s : State) (form : AddrForm) (a : BitVec 14) :
    runCmd (.pomWriteBit form a cv bit v) s =
      mobileGives s (ownMobile form a s.dec) (.pomWriteBit form a cv bit v) fun d => (d, false) :=
  runCmd_of_silent (by simp) rfl fun _ => rfl

theorem runCmd_function (number : Nat) (state : BitVec 5) (s : State) (form : AddrForm) (a : BitVec 14) :
    runCmd (.function form a number state) s =
      mobileGives s (ownMobile form a s.dec) (.function form a number state) fun d => (d, false) :=
  runCmd_of_silent (by simp) rfl fun _ => rfl

theorem functionG2State_eq_setWidth (d : BitVec 4) : functionG2State d = d.setWidth 5 := by
  revert d
  decide

/-! ### ACCESSORY -/

/-- The named bit takes the new value, every other one stays (rule R337). -/
theorem getLsbD_setOutput (mask : Byte) (output : BitVec 3) (activate : Bool) {k : Nat} (hk : k < 8) :
    (setOutput mask output activate).getLsbD k = if k = output.toNat then activate else mask.getLsbD k := by
  have hbit : (1#8 <<< output.toNat).getLsbD k = decide (output.toNat = k) := by
    rw [← BitVec.twoPow_eq, BitVec.getLsbD_twoPow, decide_eq_true (show output.toNat < 8 from output.isLt),
      Bool.true_and]
  have hstay : k ≠ output.toNat → decide (output.toNat = k) = false := fun h => decide_eq_false h.symm
  cases activate with
  | true =>
    rw [setOutput, if_pos rfl, BitVec.getLsbD_or, hbit]
    split
    · next h => rw [decide_eq_true h.symm, Bool.or_true]
    · next h => rw [hstay h, Bool.or_false]
  | false =>
    rw [setOutput, if_neg Bool.false_ne_true, BitVec.getLsbD_and, BitVec.getLsbD_not, hbit, decide_eq_true hk,
      Bool.true_and]
    split
    · next h => rw [decide_eq_true h.symm, Bool.not_true, Bool.and_false]
    · next h => rw [hstay h, Bool.not_false, Bool.and_true]

theorem handleAccessory_eq (cfg : Config) (activate : Bool) (output : BitVec 3) (d : Decoder) :
    handleAccessory cfg activate output d =
      (push2 cfg (dg12 cfg (if d.statusKind = .stat1 then 4 else 3) (setOutput d.accessoryMask output activate))
        { d with accessoryMask := setOutput d.accessoryMask output activate }, true) := by
  unfold handleAccessory
  cases hk : d.statusKind <;>
    simp [sendStatus1, sendStatus4, wireStat1, wireStat4, enqueue_two_eq_push2, encodeDatagram_eq_dg12]

/-- ACCESSORY is answered by the decoder it addresses (rules R322, R337). -/
theorem runCmd_accessory (a : BitVec 9) (activate : Bool) (output : BitVec 3) (s : State) :
    runCmd (.accessory a activate output) s =
      mobileGives s (ownAccessory a s.dec) (.accessory a activate output) (handleAccessory s.cfg activate output) :=
  runCmd_eq_mobileGives (by simp) rfl fun _ => rfl

/-! ### EXT_FUNCTION -/

/-- The rerailing search is answered by one step of the rotation and the capped uptime (rules R226, R343). -/
theorem handleRerail_eq (cfg : Config) (d : Decoder) :
    handleRerail cfg d =
      (push2 cfg (dg12 cfg 14 (BitVec.ofNat 8 (min d.uptimeS.toNat 255))) (rotate cfg d.address d.addrLong d),
        true) := by
  have hcap : (BitVec.ofNat 16 (min d.uptimeS.toNat 255)).toNat ≤ 255 := by
    simp only [BitVec.toNat_ofNat]
    omega
  have hlow : (BitVec.ofNat 16 (min d.uptimeS.toNat 255)).extractLsb' 0 8 =
      BitVec.ofNat 8 (min d.uptimeS.toNat 255) := by
    apply BitVec.eq_of_toNat_eq
    simp
  rw [handleRerail, sendRerail_eq, if_pos hcap, hlow, sendAddress_eq_rotate]

/-- What a directly addressed decoder does with command `c` (rules R341, R342, R344). -/
def extAnswer (cfg : Config) (c : Byte) (d : Decoder) : Decoder × Bool :=
  if c = 1 then (push2 cfg (dg18 cfg 3 (d.extType ++ d.extPosition)) d, true)
  else if c = 3 then
    ({ d with cvAutoActive := !d.cvAutoActive, cvCursor := if d.cvAutoActive then d.cvCursor else 0 }, false)
  else (d, false)

/-- Every command but the rerailing search is for the addressed decoder alone (rule R344). -/
theorem handleExtFunction_eq {form : AddrForm} {c : Byte} (h : ¬ (form = .broadcast ∧ c = 2)) (cfg : Config)
    (a : BitVec 14) (d : Decoder) :
    handleExtFunction cfg form a c d = if ownForm form a d then extAnswer cfg c d else (d, false) := by
  unfold handleExtFunction
  rw [if_neg h]
  cases ownForm form a d with
  | false => rfl
  | true =>
    have hsend : sendExt cfg d.extType d.extPosition d = push2 cfg (dg18 cfg 3 (d.extType ++ d.extPosition)) d := by
      rw [sendExt, enqueue_two_eq_push2, wireExt, encodeDatagram_eq_dg18]
    simp only [Bool.true_and, beq_iff_eq, if_true, hsend]
    rfl

theorem runCmd_extFunction {form : AddrForm} {c : Byte} (h : ¬ (form = .broadcast ∧ c = 2)) (a : BitVec 14)
    (s : State) :
    runCmd (.extFunction form a c) s =
      mobileGives s (ownMobile form a s.dec) (.extFunction form a c) (extAnswer s.cfg c) :=
  runCmd_eq_mobileGives (by simp) rfl (handleExtFunction_eq h s.cfg a)

/-- The rerailing search addresses nobody and is answered, so no default broadcast follows (rules R320, R324, R343). -/
theorem runCmd_rerail (a : BitVec 14) (s : State) :
    runCmd (.extFunction .broadcast a 2) s =
      packetGives s (.extFunction .broadcast a 2) true (handleRerail s.cfg s.dec).1 :=
  rfl

/-! ### The CV-Auto tick -/

theorem cvAutoTick_of_off (h : d.cvAutoActive = false ∨ d.cv = []) : cvAutoTick cfg d = d := by
  unfold cvAutoTick
  rcases h with h | h
  · rw [h]; rfl
  · simp [h, cvAt]

/-- The tick sends the entry at the cursor and moves on (rule R345). -/
theorem cvAutoTick_of_lt (hactive : d.cvAutoActive = true) (h : d.cvCursor < d.cv.length) :
    cvAutoTick cfg d =
      { push2 cfg (dg36 cfg 12 ((d.cv[d.cvCursor]).1 ++ (d.cv[d.cvCursor]).2)) d with
        cvCursor := (d.cvCursor + 1) % d.cv.length } := by
  have hentry : cvAt d.cv d.cvCursor = some d.cv[d.cvCursor] := List.getElem?_eq_getElem h
  have hwire := encodeDatagram_eq_dg36 cfg 12 ((d.cv[d.cvCursor]).1 ++ (d.cv[d.cvCursor]).2)
  simp only [cvAutoTick, hactive, hentry, if_true, sendCvAuto, enqueue_two_eq_push2, wireCvAuto, hwire]

/-- The datagram of entry `k` of a map, counted round and round (rule R346). -/
def cvDatagram (cfg : Config) (m : CvMap) (h : m ≠ []) (k : Nat) : List Byte :=
  let entry := m[k % m.length]'(Nat.mod_lt _ (List.length_pos_iff.2 h))
  dg36 cfg 12 (entry.1 ++ entry.2)

/-- The decoder half after `n` accepted ticks from the first entry (rule R346). -/
def ticked (cfg : Config) (d : Decoder) (h : d.cv ≠ []) (n : Nat) : Decoder :=
  { d with
    cvCursor := n % d.cv.length
    ch2Q := d.ch2Q ++ (List.range n).map (cvDatagram cfg d.cv h) }

theorem ticked_zero (h : d.cv ≠ []) (h0 : d.cvCursor = 0) : ticked cfg d h 0 = d := by
  have hcur : 0 % d.cv.length = d.cvCursor := by rw [Nat.zero_mod, h0]
  simp only [ticked, hcur, List.range_zero, List.map_nil, List.append_nil]

/-- With room for one more entry, one more tick appends the datagram of the next entry. -/
theorem cvAutoTick_ticked (h : d.cv ≠ []) (hactive : d.cvAutoActive = true) {n : Nat}
    (hroom : d.ch2Q.length + n < cfg.ch2Depth) : cvAutoTick cfg (ticked cfg d h n) = ticked cfg d h (n + 1) := by
  have hcur : (ticked cfg d h n).cvCursor < (ticked cfg d h n).cv.length := Nat.mod_lt _ (List.length_pos_iff.2 h)
  have hlen : (ticked cfg d h n).ch2Q.length < cfg.ch2Depth := by simpa [ticked] using hroom
  have hnext : ((ticked cfg d h n).cvCursor + 1) % (ticked cfg d h n).cv.length = (n + 1) % d.cv.length :=
    Nat.mod_add_mod n d.cv.length 1
  have hqueue : (ticked cfg d h (n + 1)).ch2Q = (ticked cfg d h n).ch2Q ++ [cvDatagram cfg d.cv h n] := by
    simp [ticked, List.range_succ]
  rw [cvAutoTick_of_lt (d := ticked cfg d h n) hactive hcur, push2, if_pos hlen, hnext]
  calc _
    _ = { d with
          cvCursor := (n + 1) % d.cv.length
          ch2Q := (ticked cfg d h n).ch2Q ++ [cvDatagram cfg d.cv h n] } := rfl
    _ = ticked cfg d h (n + 1) := by rw [← hqueue]; rfl

/-- The entries go out in order, by induction on the ticks. -/
theorem iterate_cvAutoTick (h : d.cv ≠ []) (hactive : d.cvAutoActive = true) (h0 : d.cvCursor = 0) {n : Nat}
    (hroom : d.ch2Q.length + n ≤ cfg.ch2Depth) : (cvAutoTick cfg)^[n] d = ticked cfg d h n := by
  induction n with
  | zero => exact (ticked_zero h h0).symm
  | succ n ih => rw [Function.iterate_succ_apply', ih (by omega), cvAutoTick_ticked h hactive (by omega)]

end Lemmas

/-! ### The obligations -/

/-- Settles O55: every instruction but the two resets moves the state by the table, which never goes back. -/
theorem logonStateMovesForward : Obligations.LogonStateMovesForward := by
  intro i s t ht
  refine ⟨?_, fun hreset hlogon => ?_⟩
  · rintro (rfl | rfl)
    · cases ht; rfl
    · cases ht; rfl
  · have hmoves : t.dec.logonState = logonAfter s.dec t.out.cmdOut := exec_movesAsTabulated hreset hlogon ht
    exact ⟨hmoves, hmoves ▸ logonCode_le_logonAfter s.dec t.out.cmdOut⟩

/-- Settles O45: LOGON_ENABLE is its handler, by the logon state and whether the counter is 0. -/
theorem logonEnableSingulates : Obligations.LogonEnableSingulates := by
  intro s group cid session e d cmd
  have hrun : exec (.dccLogonEnable group cid session e) s =
      packetGives s cmd (handleLogonEnable s.cfg d).2 (handleLogonEnable s.cfg d).1 :=
    runCmd_logonEnable group cid session s
  refine ⟨fun hlate => ?_, fun hearly => ⟨fun h0 => ?_, fun hne => ?_⟩⟩
  · rw [hrun, handleLogonEnable_of_late hlate]
  · rw [hrun, handleLogonEnable_of_zero ((logonCode_lt_three_iff _).2 hearly) h0]
    rfl
  · rw [hrun, handleLogonEnable_of_ne_zero ((logonCode_lt_three_iff _).2 hearly) hne]
    rfl

/-- Settles O46: the handler iterated as often as the counter says, then once more. -/
theorem backoffDelaysAndGrows : Obligations.BackoffDelaysAndGrows := by
  intro s group cid session e hl hstep
  have hexec : ∀ s, ∃ t, exec (.dccLogonEnable group cid session e) s = .next t ∧ t.cfg = s.cfg ∧
      t.dec = (handleLogonEnable s.cfg s.dec).1 :=
    fun s => ⟨_, runCmd_logonEnable group cid session s, rfl, rfl⟩
  obtain ⟨t, hrun, hcfg, hdec⟩ :=
    runAll_replicate (g := fun cfg d => (handleLogonEnable cfg d).1) hexec s.dec.backoffCounter.toNat s
  have hdown : CountedDown s.dec t.dec := hdec ▸ iterate_handleLogonEnable rfl hl
  have hlast := runCmd_logonEnable group cid session t
  rw [handleLogonEnable_of_zero hdown.early hdown.counter] at hlast
  refine ⟨t, _, hrun, hdown.ch1Q, hdown.ch2Q, hdown.counter, hdown.value, hlast, rfl, rfl, hdown.value, fun hmax => ?_⟩
  rw [← hdown.value] at hmax ⊢
  exact lt_backoffValue_identityBroadcast (hcfg ▸ hstep) hmax

/-- Settles O49: the handlers of these commands do nothing. -/
theorem silentCommands : Obligations.SilentCommands := by
  intro s e quiet
  refine ⟨⟨runCmd_of_isLogon rfl s, runCmd_of_isLogon rfl s, fun data => ⟨runCmd_of_isLogon rfl s,
    runCmd_of_isLogon rfl s⟩⟩, fun v d => ?_, fun v x d b => ?_, fun d => ?_, fun d => ?_⟩
  · exact mobileGives_of_forms (runCmd_pomWrite (cvNumber v) d s)
  · exact mobileGives_of_forms (runCmd_pomWriteBit (cvNumber v) b d s)
  · exact mobileGives_of_forms (runCmd_function 0 (functionG1State d) s)
  · rw [← functionG2State_eq_setWidth]
    obtain ⟨hb5, hs5, hl5⟩ := mobileGives_of_forms (runCmd_function 5 (functionG2State d) s)
    obtain ⟨hb9, hs9, hl9⟩ := mobileGives_of_forms (runCmd_function 9 (functionG2State d) s)
    exact ⟨hb5, hb9, fun a => ⟨hs5 a, hs9 a⟩, fun a => ⟨hl5 a, hl9 a⟩⟩

/-- Settles O50: the mask is `setOutput` of the old one. -/
theorem accessorySetsItsBit : Obligations.AccessorySetsItsBit := by
  intro s a h c out e address cmd
  have hrun : exec (.dccAccessory a h c out e) s =
      mobileGives s (ownAccessory address s.dec) cmd (handleAccessory s.cfg c out) := runCmd_accessory address c out s
  refine ⟨fun hown => ⟨setOutput s.dec.accessoryMask out c, fun k => getLsbD_setOutput _ out c, ?_⟩, fun hown => ?_⟩
  · rw [hrun, hown, mobileGives, handleAccessory_eq]
    rfl
  · rw [hrun, hown]
    rfl

/-- Settles O51: command 2 to the broadcast address apart, the three packets are one command in three address forms. -/
theorem extFunctionCommands : Obligations.ExtFunctionCommands := by
  intro s c e own
  refine ⟨?_, fun hc => runCmd_extFunction (fun h => hc h.2) 0 s, fun a => ?_,
    fun a => runCmd_extFunction (by simp) a s⟩
  · rintro rfl
    have hanswer := congrArg Prod.fst (handleRerail_eq s.cfg s.dec)
    exact (runCmd_rerail 0 s).trans (congrArg (packetGives s _ true) hanswer)
  · rw [← ownMobile_short_setWidth]
    exact runCmd_extFunction (by simp) (shortAddress a) s

/-- Settles O53: the operation is the tick on the decoder half. -/
theorem cvAutoTickSendsOneEntry : Obligations.CvAutoTickSendsOneEntry :=
  ⟨fun _ => rfl, fun s h => congrArg (decoderBecomes s) (cvAutoTick_of_off h),
    fun s h hactive => congrArg (decoderBecomes s) (cvAutoTick_of_lt hactive h)⟩

/-- Settles O54: the tick iterated from the first entry, while there is room. -/
theorem cvAutoVisitsTheMapInOrder : Obligations.CvAutoVisitsTheMapInOrder := by
  intro s n h hactive h0 hroom
  obtain ⟨t, hrun, -, hdec⟩ := runAll_replicate (i := .opCvAutoTick) (g := cvAutoTick)
    (fun s => ⟨_, rfl, rfl, rfl⟩) n s
  rw [iterate_cvAutoTick h hactive h0 hroom] at hdec
  exact ⟨t, hrun, by rw [hdec]; rfl, by rw [hdec]; rfl⟩

end Sys2Proof.DecoderFsm

/-! PROOFS. The host operations (45_host_ops.md): a step with nothing waiting and a code that is not listed (rules R381,
R430), the transport life cycle (rules R395 to R398), the configuration writes (rules R382 to R384, R386, R388, R389,
R392 to R394, R399, R400), and the writes of the two stores (rules R385, R387). -/

namespace Sys2Proof.HostOps

open Sys2Proof.Machine Sys2Proof.Claims Sys2Proof.Memory Sys2Proof.Parser

section Lemmas

variable {cfg : Config} {s : State} {key : BitVec 24} {m : CvMap} {num : Byte} {bytes : List Byte}
  {store : List DsRecord}

/-! ### Steps that run no instruction -/

/-- Where nothing waits the engine is idle (rule R430). -/
theorem step_of_idle (h : s.port = []) : step s = .next s := by
  simp [step, takeTrigger, takeClass, h]

/-- A trigger that presents no instruction leaves the port and does nothing (rule R381). -/
theorem step_of_reject {t : Trigger} {waiting : List Trigger} {reason : Reject}
    (ht : takeTrigger s.port = some (t, waiting)) (hd : decode s.cfg t = .error reason) :
    step s = .next { s with port := waiting, out := {} } := by
  simp [step, ht, hd, ignored]

/-- Each arm of the decoder's table is for a listed code, so only the last is left. -/
theorem decodeHost_of_unlisted {code : Byte} (args : List Byte) (line : List RxSample) (h : code ∉ listedCodes) :
    decodeHost code args line = .error (.unlistedOpCode code) := by
  have hne : ∀ n, code.toNat = n → BitVec.ofNat 8 n ∉ listedCodes := by
    rintro n rfl
    rwa [BitVec.ofNat_toNat, BitVec.setWidth_eq]
  unfold decodeHost
  split
  case h_43 => rfl
  all_goals exact (hne _ ‹_› (by decide)).elim

/-! ### The uptime -/

/-- Counting one up saturates at the largest word (rules R31, R394). -/
theorem satAdd_one (w : Word32) : satAdd w 1 = if w = 0xFFFFFFFF then 0xFFFFFFFF else w + 1 := by
  unfold satAdd
  split
  · next h => rw [h]; rfl
  · next h =>
    have hlt : w.toNat + 1 ≤ 0xFFFFFFFF := by bv_omega
    rw [Nat.min_eq_left hlt]
    rfl

/-! ### The CV map -/

theorem cvSet_of_mem (value : Byte) (h : key ∈ m.map (·.1)) : cvSet cfg key value m = cvReplace key value m :=
  if_pos (by simpa using h)

theorem cvSet_of_new (value : Byte) (h : key ∉ m.map (·.1)) :
    cvSet cfg key value m = if m.length < cfg.cvCapacity then m ++ [(key, value)] else m :=
  if_neg (by simpa using h)

/-- `cv_set` of one key leaves the values of the others. -/
theorem cvLookup_cvSet_of_ne (cfg : Config) (value : Byte) (m : CvMap) {k : BitVec 24} (h : k ≠ key) :
    cvLookup k (cvSet cfg key value m) = cvLookup k m := by
  rcases cvSet_cases cfg key value m with ⟨-, e⟩ | ⟨hnew, -, e⟩ | ⟨-, -, e⟩ <;> rw [e]
  · exact cvLookup_cvReplace_of_ne value m h
  · rw [cvLookup_append_new value hnew, if_neg h]

/-! ### The data-space store -/

theorem dsSet_of_long (num : Byte) (store : List DsRecord) (h : cfg.dsMaxLen < bytes.length) :
    dsSet cfg num bytes store = store :=
  if_pos h

theorem dsSet_of_mem (hlen : bytes.length ≤ cfg.dsMaxLen) (h : num ∈ store.map (·.num)) :
    dsSet cfg num bytes store = dsReplace num bytes store := by
  rw [dsSet, if_neg (Nat.not_lt.2 hlen), if_pos (by simpa using h)]

theorem dsSet_of_new (hlen : bytes.length ≤ cfg.dsMaxLen) (h : num ∉ store.map (·.num)) :
    dsSet cfg num bytes store =
      if store.length < cfg.dsCapacity then store ++ [{ num := num, bytes := bytes }] else store := by
  rw [dsSet, if_neg (Nat.not_lt.2 hlen), if_neg (by simpa using h)]

/-- `ds_set` of one number leaves the records of the others. -/
theorem dsFind_dsSet_of_ne (cfg : Config) (bytes : List Byte) (store : List DsRecord) {n : Byte} (h : n ≠ num) :
    dsFind n (dsSet cfg num bytes store) = dsFind n store := by
  rcases dsSet_cases cfg num bytes store with e | ⟨-, -, e⟩ | ⟨-, hnew, -, e⟩ <;> rw [e]
  · exact dsFind_dsReplace_of_ne bytes store h
  · rw [dsFind_append_new bytes hnew, if_neg h]

/-- The first record of a number is that number with the bytes the store answers (rule R74). -/
theorem find?_eq_dsFind (num : Byte) (store : List DsRecord) :
    store.find? (·.num == num) = (dsFind num store).map fun bytes => { num := num, bytes := bytes } := by
  rw [dsFind_eq_find?]
  cases hfind : store.find? (·.num == num) with
  | none => rfl
  | some r =>
    have hnum : r.num = num := by simpa using List.find?_some hfind
    rw [← hnum]
    rfl

end Lemmas

/-! ### The obligations -/

/-- Settles O28: `m` is the map `cv_set` gives. -/
theorem cvSetWritesOneEntry : Obligations.CvSetWritesOneEntry := by
  refine ⟨fun _ _ _ => rfl, fun s key value => ⟨cvSet s.cfg key value s.dec.cv, rfl, fun hkey => ?_,
    fun hnew hroom => ?_, fun hnew hfull => ?_, fun k hk => ?_⟩⟩
  · rw [cvSet_of_mem value hkey, ← cvLookup_eq_lookup]
    exact ⟨cvReplace_keys key value s.dec.cv, cvLookup_cvReplace_self value hkey⟩
  · rw [cvSet_of_new value hnew, if_pos hroom]
  · rw [cvSet_of_new value hnew, if_neg (Nat.not_lt.2 hfull)]
  · rw [← cvLookup_eq_lookup, ← cvLookup_eq_lookup, cvLookup_cvSet_of_ne s.cfg value s.dec.cv hk]

/-- Settles O29: `m` is the store `ds_set` gives. -/
theorem dsSetWritesOneRecord : Obligations.DsSetWritesOneRecord := by
  refine ⟨fun _ _ _ => rfl, fun s num bytes => ⟨dsSet s.cfg num bytes s.dec.ds, rfl, dsSet_of_long num s.dec.ds,
    fun hlen => ⟨fun hnum => ?_, fun hnew hroom => ?_, fun hnew hfull => ?_⟩, fun n hn => ?_⟩⟩
  · rw [dsSet_of_mem hlen hnum, find?_eq_dsFind, dsFind_dsReplace_self bytes hnum]
    exact ⟨dsReplace_nums num bytes s.dec.ds, rfl⟩
  · rw [dsSet_of_new hlen hnew, if_pos hroom]
  · rw [dsSet_of_new hlen hnew, if_neg (Nat.not_lt.2 hfull)]
  · rw [find?_eq_dsFind, find?_eq_dsFind, dsFind_dsSet_of_ne s.cfg bytes s.dec.ds hn]

/-- Settles O3: neither step runs an instruction. -/
theorem idleAndUnlistedCodesChangeNothing : Obligations.IdleAndUnlistedCodesChangeNothing :=
  ⟨fun _ => step_of_idle, fun _ _ args line _ ht hcode => step_of_reject ht (decodeHost_of_unlisted args line hcode)⟩

/-- Settles O26: each operation is its list of calls. -/
theorem transportLifeCycle : Obligations.TransportLifeCycle :=
  fun _ => ⟨rfl, rfl, rfl, rfl⟩

/-- Settles O27: each operation is one assignment to the decoder half, `second_tick` by `satAdd_one`. -/
theorem configurationWrites : Obligations.ConfigurationWrites := by
  refine ⟨fun _ _ => ⟨fun _ => rfl, fun _ => rfl⟩, fun _ _ => ⟨fun _ => rfl, fun _ => rfl⟩,
    fun _ _ => ⟨fun _ => rfl, fun _ => rfl⟩, fun en => ?_, fun _ => ⟨fun _ => rfl, fun _ => rfl⟩,
    fun _ _ => ⟨fun _ => rfl, fun _ => rfl⟩, fun _ _ _ => ⟨fun _ => rfl, fun _ => rfl⟩,
    ⟨fun _ => rfl, fun _ => rfl⟩, ⟨fun _ => rfl, fun _ => rfl⟩, ⟨fun _ => rfl, fun _ => rfl⟩, ?_⟩
  · cases en <;> exact ⟨fun _ => rfl, fun _ => rfl⟩
  · exact ⟨fun _ => rfl, fun s =>
      congrArg (fun u => decoderBecomes s { s.dec with uptimeS := u }) (satAdd_one s.dec.uptimeS)⟩

end Sys2Proof.HostOps

/-! PROOFS. Triggers and steps (60_exceptions.md): the order in which waiting triggers are taken (rules R420, R425), the
instruction a step runs (rule R413), and that every operation completes (rule R410). -/

namespace Sys2Proof.Exceptions

open Sys2Proof.Machine Sys2Proof.Frames Sys2Proof.HostOps

section Lemmas

variable {s : State} {port waiting : List Trigger} {t : Trigger} {i : Instr}

/-! ### The order of triggers -/

theorem takeClass_class {c : Nat} (h : takeClass c port = some (t, waiting)) : triggerClass t = c := by
  obtain ⟨_, _, _, _, hc, _⟩ := takeClass_eq_some h
  exact hc

/-- Nothing is taken only where nothing waits: the four classes tried are all there are. -/
theorem takeTrigger_eq_none : takeTrigger port = none ↔ port = [] := by
  refine ⟨fun h => List.eq_nil_iff_forall_not_mem.2 fun x hx => ?_, fun h => by rw [h]; rfl⟩
  simp only [takeTrigger, Option.or_eq_none_iff, takeClass_eq_none] at h
  obtain ⟨h0, h1, h2, h3⟩ := h
  have hlt := triggerClass_lt x
  have := h0 x hx
  have := h1 x hx
  have := h2 x hx
  have := h3 x hx
  omega

/-- The trigger taken is the first of its class, and no class before its own waits: those were tried first. -/
theorem takeTrigger_eq_some (h : takeTrigger port = some (t, waiting)) :
    takeClass (triggerClass t) port = some (t, waiting) ∧ ∀ x ∈ port, triggerClass t ≤ triggerClass x := by
  simp only [takeTrigger, Option.or_eq_some_iff, takeClass_eq_none] at h
  obtain h0 | ⟨n0, h1 | ⟨n1, h2 | ⟨n2, h3⟩⟩⟩ := h
  · rw [takeClass_class h0]
    exact ⟨h0, fun x _ => Nat.zero_le _⟩
  · rw [takeClass_class h1]
    exact ⟨h1, fun x hx => by have := n0 x hx; omega⟩
  · rw [takeClass_class h2]
    exact ⟨h2, fun x hx => by have := n0 x hx; have := n1 x hx; omega⟩
  · rw [takeClass_class h3]
    exact ⟨h3, fun x hx => by have := n0 x hx; have := n1 x hx; have := n2 x hx; omega⟩

/-! ### Steps and operations -/

/-- A trigger that presents an instruction leaves the port, and the instruction runs (rule R413). -/
theorem step_of_decode (ht : takeTrigger s.port = some (t, waiting)) (hd : decode s.cfg t = .ok i) :
    step s = exec i { s with port := waiting } := by
  simp only [step, ht, hd]

/-- `reset` writes the table of rule R52; every other instruction replaces one half of the state (rule R20). -/
theorem exec_completes (i : Instr) (s : State) : ∃ t, exec i s = .next t := by
  by_cases hi : i = .opReset
  · rw [hi]
    exact ⟨_, rfl⟩
  · obtain h | h := on_one_half hi
    · obtain ⟨_, _, e, -⟩ := h s s rfl rfl
      exact ⟨_, e⟩
    · obtain ⟨_, _, e, -⟩ := h s s rfl rfl
      exact ⟨_, e⟩

/-- A step is idle, ignores its trigger, or runs an instruction. -/
theorem step_completes (s : State) : ∃ t, step s = .next t := by
  cases ht : takeTrigger s.port with
  | none => exact ⟨s, step_of_idle (takeTrigger_eq_none.1 ht)⟩
  | some taken =>
    obtain ⟨t, waiting⟩ := taken
    cases hd : decode s.cfg t with
    | error reason => exact ⟨_, step_of_reject ht hd⟩
    | ok i =>
      rw [step_of_decode ht hd]
      exact exec_completes i _

end Lemmas

/-! ### The obligations -/

/-- Settles O4: among those of its class the trigger taken is the first, and no other class is before its own. -/
theorem triggersAreTakenInOrder : Obligations.TriggersAreTakenInOrder := by
  refine ⟨⟨rfl, fun _ _ => rfl, fun _ => rfl, fun _ => rfl, fun _ _ _ hcode => if_neg hcode, fun _ => rfl,
    fun _ _ => rfl⟩, fun _ => takeTrigger_eq_none, fun port t waiting h => ?_⟩
  obtain ⟨hclass, hle⟩ := takeTrigger_eq_some h
  obtain ⟨before, later, rfl, rfl, -, hbefore⟩ := takeClass_eq_some hclass
  refine ⟨before, later, rfl, rfl, fun u hu => ?_, fun u hu => hle u (by simp [hu])⟩
  exact lt_of_le_of_ne (hle u (by simp [hu])) (hbefore u hu).symm

/-- Settles O2: the arm of `step` for a trigger that decodes. -/
theorem stepRunsDecodedInstruction : Obligations.StepRunsDecodedInstruction :=
  fun _ _ _ _ => step_of_decode

/-- Settles O5: no arm of `exec` faults or refuses, so neither does a step. -/
theorem everyOperationCompletes : Obligations.EveryOperationCompletes :=
  ⟨exec_completes, step_completes⟩

end Sys2Proof.Exceptions
